-- ==== Sys2Proof/Word.lean ====
section
/-! DEFINITION. The word types of the Gewen and the sparse map in which it keeps its numbered parts. -/

namespace Sys2Proof

/-- A byte. -/
abbrev Byte := BitVec 8
/-- A 32-bit word: a register of BAR0 (R5), a vector lane, an accumulator word, a token. -/
abbrev Word := BitVec 32
/-- A 64-bit word: an instruction, a base or mask register, a descriptor word. -/
abbrev DWord := BitVec 64
/-- A SHA-256 digest; byte 0 of the digest is its most significant byte. -/
abbrev Digest := BitVec 256

/-- A numbered family of like parts, held sparsely: keys strictly rising. A key that is not listed
holds the family's default value. -/
abbrev FMap (α : Type) := List (Nat × α)

end Sys2Proof
end

