-- ==== Sys2Proof/Types.lean ====
section
/-! DEFINITION. The data that commands carry: what the host's memory returns to a read, priority flits, flits, packets, discovery records, management authentication, the fabric plan, and the outcomes of physical tests. -/

namespace Sys2Proof

/-- What a read of host memory returned (R442). -/
inductive ReadStatus where
  | ok       -- data
  | poison   -- poisoned data
  | failed   -- a translation failure or a completion error
  deriving DecidableEq, Repr

/-- A QUERY descriptor (R425), and what the access to the buffer that it names returned (R442). -/
structure QueryDesc where
  words  : BitVec 512 := 0
  buffer : ReadStatus := .ok
  deriving DecidableEq, Repr

/-- The outcome of a read of host memory in 64-bit words. -/
structure Fetch where
  status : ReadStatus := .ok
  words  : List DWord := []
  deriving DecidableEq, Repr

/-- The outcome of a read of host memory or of flash in bytes. -/
structure FetchBytes where
  status : ReadStatus := .ok
  bytes  : List Byte := []
  deriving DecidableEq, Repr

/-- The source of a delivery on a mesh slot (R213): one sending core, one multicast group, another
device, or a collectives engine. -/
inductive Source where
  | core   (v : Nat)
  | group  (g : Nat)
  | device (d : Nat)
  | engine (e : Nat)
  deriving DecidableEq, Repr

/-- A priority flit's payload (table of R362). -/
structure Prio where
  pkey   : Nat := 0
  epoch  : Nat := 0
  origin : Nat := 0
  stroke : Nat := 0
  round  : Nat := 0
  code   : Nat := 0
  cause  : Nat := 0
  gtc    : Nat := 0
  frac   : Nat := 0
  deriving DecidableEq, Repr

/-- A flit as it stands on the wire (R357): 16 B of header, 224 B of payload, 16 B of trailer. -/
structure Flit where
  header  : BitVec 128 := 0
  payload : List Byte := []
  trailer : BitVec 128 := 0
  deriving DecidableEq, Repr

/-- A flit as a port receives it (R369), with the codewords that the FEC corrected, and could not, since the flit
before (R377). -/
structure RxFlit where
  flit      : Flit := {}
  corrected : Nat := 0
  bad       : Nat := 0
  deriving DecidableEq, Repr

/-- A discovery record (table of R348). -/
structure Disc where
  recVersion : Nat := 1
  protoMin   : Nat := 1
  protoMax   : Nat := 1
  archMajor  : Nat := 1
  archMinor  : Nat := 0
  imgMax     : Nat := 1
  axis       : Nat := 0
  link       : Nat := 0
  planned    : Bool := false
  vcMask     : BitVec 8 := 0
  device     : Nat := 0xFFFFFF
  peer       : Nat := 0
  peerLink   : Nat := 0
  identity   : DWord := 0
  fwBuild    : Word := 0
  deriving DecidableEq, Repr

/-- A packet: the header of the table before R383, its VC and partition key, and its data. -/
structure Packet where
  vc      : Nat := 0
  pkey    : Nat := 0
  version : Nat := 1
  ptype   : Nat := 1
  stage   : Nat := 0
  dst     : Nat := 0
  src     : Nat := 0
  via     : Nat := 0
  gsel0   : Nat := 0
  gsel1   : Nat := 0
  slot    : Nat := 0
  tag     : Nat := 0
  epoch   : Nat := 0
  lastPkt : Bool := false
  len     : Nat := 0
  vx      : Nat := 0
  vy      : Nat := 0
  status  : Nat := 0
  addr    : Nat := 0
  discard : Bool := false
  data    : List Byte := []
  deriving DecidableEq, Repr

/-- The header and the body bytes of a management message with its MAC (R394). The bodies have no byte layout in the
manual: what the body says is the command's other operands. -/
structure Auth where
  sender  : Nat := 0
  session : Nat := 0
  seq     : Nat := 1
  mver    : Nat := 1
  mtype   : Nat := 0
  body    : List Byte := []
  mac     : Digest := 0
  deriving DecidableEq, Repr

/-- Whose messages a management message is among: the fabric manager's, those between the devices of a
partition, a pair's, or anyone's (R394). -/
inductive KeyUse where
  | manager
  | member
  | pair
  | any
  deriving DecidableEq, Repr

/-- A launch record with what LAUNCH carries beside it (R191, R396). -/
structure LaunchRec where
  version     : Nat := 1
  epoch       : Nat := 0
  l1          : Nat := 0
  quant       : Nat := 0
  lead        : Nat := 0
  path        : Nat := 0
  syncLimit   : Nat := 12
  coord       : Nat := 0
  planDigest  : Digest := 0
  imageDigest : Digest := 0
  imgVersion  : Nat := 1
  archMajor   : Nat := 1
  archMinor   : Nat := 0
  devices     : Nat := 1
  deriving DecidableEq, Repr

/-- The header of the common part of a fabric plan (table before R381). -/
structure PlanHeader where
  version : Nat := 1
  pkey    : Nat := 0
  n       : Nat := 1
  coord   : Nat := 0
  master  : Nat := 0
  path    : Nat := 0
  paired  : Bool := false
  pairKey : Digest := 0
  deriving DecidableEq, Repr

/-- One entry of the G table: the endpoints of one G link between groups `a < b`. -/
structure GEntry where
  devA  : Nat := 0
  linkA : Nat := 0
  devB  : Nat := 0
  linkB : Nat := 0
  spare : Bool := true
  deriving DecidableEq, Repr

/-- The eight G entries of a pair of listed groups. -/
structure GPair where
  a       : Nat := 0
  b       : Nat := 0
  entries : List GEntry := []
  deriving DecidableEq, Repr

/-- One entry of the collective table (table before R392). -/
structure CollEntry where
  id           : Nat := 0
  op           : Nat := 0
  combine      : Nat := 0
  fmt          : Nat := 0
  engine       : Nat := 0
  vc           : Nat := 1
  subset       : Bool := false
  count        : Nat := 0
  root         : Nat := 0
  deliverSlot  : Nat := 0
  deliverGroup : Nat := 0
  deriving DecidableEq, Repr

/-- The common part of a fabric plan. -/
structure PlanCommon where
  header  : PlanHeader := {}
  ranks   : List Nat := []
  groups  : List Nat := []
  gTable  : List GPair := []
  colls   : List CollEntry := []
  digests : List Digest := []
  deriving DecidableEq, Repr

/-- One link entry of the device part. -/
structure LinkEntry where
  peer     : Nat := 0
  peerLink : Nat := 0
  planned  : Bool := false
  spare    : Bool := false
  hedge    : Bool := false
  pair     : Bool := false
  deriving DecidableEq, Repr

/-- The device part of a fabric plan. A source flow is 16 bits; so is a slot table entry. -/
structure PlanDevice where
  links  : List LinkEntry := []
  master : Bool := false
  uplink : Nat := 0x7F
  depth  : Nat := 0
  flows  : FMap (BitVec 16) := []
  tx     : FMap (BitVec 16) := []   -- key 120 × link + slot
  rx     : FMap (BitVec 16) := []   -- key 120 × link + slot
  deriving DecidableEq, Repr

/-- One section of the plan as PLAN_WRITE carries it (table before R381). -/
inductive PlanPart where
  | header  (h : PlanHeader)
  | ranks   (ids : List Nat)
  | groups  (gs : List Nat)
  | gTable  (ps : List GPair)
  | colls   (cs : List CollEntry)
  | digests (ds : List Digest)
  | links   (ls : List LinkEntry)
  | sync    (master : Bool) (uplink depth : Nat)
  | flow    (slot : Nat) (f : BitVec 16)
  | txSlot  (link slot : Nat) (e : BitVec 16)
  | rxSlot  (link slot : Nat) (e : BitVec 16)
  deriving DecidableEq, Repr

/-- What a heath's bring-up test found (R30, R471). -/
structure SelfTest where
  pllLock   : Bool := true
  ctrlOk    : Bool := true
  meshOk    : Bool := true
  hasherOk  : Bool := true
  spareOk   : Bool := true  -- the spare pipeline of the home memory rim die (R17)
  coreFails : BitVec 27 := 0
  rows      : List (Nat × Nat × Nat) := []  -- failed plate rows: physical core, bank, how many (R136)
  delay     : Nat := 0      -- largest measured crossing latency (R175)
  deriving DecidableEq, Repr

/-- How a retrain ended (R371, R372): resumed, with the lane found failed, if any; or failed, with the
peer in full training or 2^14 ticks passed. -/
inductive RetrainEnd where
  | resumed (lane : Option Nat)
  | failed
  deriving DecidableEq, Repr

/-- Why a function is disabled (R436). -/
inductive DisableCause where
  | enableClear
  | flr
  | d3hot
  | busMaster
  | vf
  | hostLink
  deriving DecidableEq, Repr

/-- The part of a function's PCI configuration that R436 reads. -/
structure FnPci where
  d3hot     : Bool := false
  busMaster : Bool := true
  present   : Bool := true   -- PF0, or a VF with VF Enable set and its number within NumVFs
  deriving DecidableEq, Repr

/-- The path by which a guard request arrives (R464). -/
inductive GuardPath where
  | pf0
  | i3c
  | stile
  deriving DecidableEq, Repr

/-- A power-good input (R503). -/
inductive PowerGood where
  | stl | hcore | hsram | rim | mem | sd
  deriving DecidableEq, Repr

/-- An edge of a power-good input: it falls, or it returns. -/
structure PgEdge where
  pg   : PowerGood := .stl
  rise : Bool := false
  deriving DecidableEq, Repr

/-- The first three words of a slot's record (R251), which a leading partner sends; the fourth names a place
in the memory of the device that reads the record. -/
structure PairRec where
  w0 : DWord := 0
  w1 : DWord := 0          -- [47:0] PAGE_TABLE is the reader's own
  w2 : DWord := 0
  deriving DecidableEq, Repr

/-- What a slot of a step carries, as a leading partner names it (R333). -/
structure PairSlot where
  tag  : DWord := 0
  kind : Nat := 0          -- 0 decode, 1 chunk, 2 attribution part
  slot : Nat := 0
  rec_ : PairRec := {}
  deriving DecidableEq, Repr

/-- The content of a PAIR message (R333, R334). -/
inductive PairMsg where
  | bindings (step variant : Nat) (slots : List PairSlot) (ends : List (DWord × Nat))
      (switches : List DWord)
  | head     (step : Nat) (head : Digest)
  deriving DecidableEq, Repr

/-- The line that patrol scrub reads (R150): one at a device address, or one of the spare channel of a die, by its byte
in the channel. -/
inductive ScrubAt where
  | mapped (addr : Nat)
  | spare (d o : Nat)
  deriving DecidableEq, Repr

/-- What a READY says (R287): the member that sends it and the BASE of its near region. DESIGN CHOICE (log 86). -/
structure ReadyMsg where
  member : Nat := 0
  base   : Nat := 0
  deriving DecidableEq, Repr

/-- An offset in the BAR0 of a function (R441, R490). -/
structure BarAt where
  fn  : Nat := 0
  off : Nat := 0
  deriving DecidableEq, Repr

/-- What an SPDM request asks for (R451 to R453). -/
inductive SpdmAsk where
  | plain                              -- an answer that needs no signature
  | signed                             -- an answer that the identity key signs
  | heartbeat
  | keyUpdate
  | endSession
  | getCsr
  | setCertificate (chain : List Byte)
  deriving DecidableEq, Repr

/-- An SPDM request, and the session that it comes in; 0: none. -/
structure SpdmMsg where
  session : Nat := 0
  ask     : SpdmAsk := .plain
  deriving DecidableEq, Repr

/-- A power cap that the tray controller sets over MCTP (R481), and the I3C address that it is sent to (R500). -/
structure MctpCap where
  addr  : Nat := 0x30
  watts : Nat := 0
  deriving DecidableEq, Repr

/-- The rail telemetry of an interval (R480): P in W, and the core rail current of each heath in A (R487). -/
structure Telemetry where
  watts : Nat := 0
  amps  : List Nat := []
  deriving DecidableEq, Repr

/-- The measurement that a requester asks for, and whether signed (R454). -/
structure MeasAsk where
  index  : Nat := 0
  signed : Bool := false
  deriving DecidableEq, Repr

/-- The head word of a ring as the device read it (R416), and how the access to the ring that follows it ends
(R442). -/
structure HeadRead where
  count  : Nat := 0
  status : ReadStatus := .ok
  deriving DecidableEq, Repr

/-- What a read of a doorbell line returned (R410, R416): line `r` of function `f`, its words SQ_TAIL and CQ_HEAD or
EVT_HEAD. -/
structure DoorLine where
  f    : Nat := 0
  r    : Nat := 0
  tail : Nat := 0
  head : HeadRead := {}
  deriving DecidableEq, Repr

/-- What an entry of the CDAT's latency and bandwidth information gives (R411). -/
inductive CdatKind where
  | readLatency | writeLatency | readBandwidth | writeBandwidth
  deriving DecidableEq, Repr

/-- An entry of the CDAT (R411). -/
inductive CdatEntry where
  | dsmas (handle dpa length : Nat)
  | dslbis (handle : Nat) (kind : CdatKind) (value : Nat)   -- nanoseconds or gigabytes per second
  deriving DecidableEq, Repr

/-- A data object of PF0's DOE mailbox (R408, R456). -/
inductive DoeObject where
  | discovery | spdm | securedSpdm | cdat (entry : Nat) | debugToken | fwLoad
  deriving DecidableEq, Repr

/-- What is asked of the test access port and the instrument network (R455). -/
inductive TapUse where
  | idcode | bypass | tokenReg | boundary | instrument | scan
  deriving DecidableEq, Repr

/-- The link to the host after training (R409). -/
structure HostLink where
  rate    : Nat := 4
  width   : Nat := 16
  flit256 : Bool := true
  cache   : Bool := true
  mem     : Bool := true
  ideIo   : Bool := false
  ideCm   : Bool := false
  deriving DecidableEq, Repr

/-- What the scrubber zeroes (R257): a fallow page by its number, or a freed token store block by its address. -/
inductive FallowUnit where
  | page (n : Nat)
  | block (a : Nat)
  deriving DecidableEq, Repr

/-- A management message the device sends (R394): destination, MTYPE, session, and what its body holds: a status
or number, a second number, a digest, bytes, a pair message, a launch record. -/
structure MgmtOut where
  dst    : Nat := 0
  mtype  : Nat := 0
  session : Nat := 0
  a      : Nat := 0
  b      : Nat := 0
  digest : Digest := 0
  bytes  : List Byte := []
  pair   : Option PairMsg := none
  launch : Option LaunchRec := none
  deriving DecidableEq, Repr

end Sys2Proof
end

