-- ==== Sys2Proof/Syntax.lean ====
section
/-! DEFINITION. The commands of the Gewen: one constructor for each row of the operations and events table. -/

namespace Sys2Proof

/-- The commands. A core instruction names the virtual core whose sequencer takes it from its
instruction store; what the device reads from host memory, a message, a packet, a flit or the outcome
of a physical measurement is an operand; everything else stands in the state. -/
inductive Instr where
  /-- LOAD_TILE (R71). -/
  | loadTile (v : Nat)
  /-- STREAM (R77). -/
  | stream (v : Nat)
  /-- DRAIN (R81). -/
  | drain (v : Nat)
  /-- ACC_CLEAR (R82). -/
  | accClear (v : Nat)
  /-- VMP_LOAD (R88). -/
  | vmpLoad (v : Nat)
  /-- VMP_STREAM (R89). -/
  | vmpStream (v : Nat)
  /-- VMP_DRAIN (R88). -/
  | vmpDrain (v : Nat)
  /-- VMP_CLEAR (R88). -/
  | vmpClear (v : Nat)
  /-- VLD (R103). -/
  | vld (v : Nat)
  /-- VST (R104). -/
  | vst (v : Nat)
  /-- VALU (R61). -/
  | valu (v : Nat)
  /-- VFN (R64). -/
  | vfn (v : Nat)
  /-- VRED (R63). -/
  | vred (v : Nat)
  /-- VMASK (R107). -/
  | vmask (v : Nat)
  /-- VLANE (R107). -/
  | vlane (v : Nat)
  /-- MLD (R105). -/
  | mld (v : Nat)
  /-- MST (R105). -/
  | mst (v : Nat)
  /-- NLD (R105). -/
  | nld (v : Nat)
  /-- RECST (R127). -/
  | recst (v : Nat)
  /-- DMA_ROW (R166). -/
  | dmaRow (v : Nat)
  /-- DMA_COL (R167). -/
  | dmaCol (v : Nat)
  /-- DMA_PRESS_IMAGE (R168). -/
  | dmaPressImage (v : Nat)
  /-- DMA_MX_PACK (R169). -/
  | dmaMxPack (v : Nat)
  /-- DMA_GATHER (R170). -/
  | dmaGather (v : Nat)
  /-- SEND (R111). -/
  | send (v : Nat)
  /-- RECV (R111). -/
  | recv (v : Nat)
  /-- MCAST (R112). -/
  | mcast (v : Nat)
  /-- STROKE_END (R125). -/
  | strokeEnd (v : Nat)
  /-- WAIT (R122). -/
  | wait (v : Nat)
  /-- OWN (R119). -/
  | own (v : Nat)
  /-- NOP (R99). -/
  | nop (v : Nat)
  /-- LOOP (R114). -/
  | loop (v : Nat)
  /-- SETB (R100). -/
  | setb (v : Nat)
  /-- ADDB (R100). -/
  | addb (v : Nat)
  /-- MOP (R115). -/
  | mop (v : Nat)
  /-- HALT (R128). -/
  | halt (v : Nat)
  /-- MESH_DELIVERY (R111). -/
  | meshDelivery (v slot : Nat) (src : Source)
  /-- RECV_COMPLETE (R121). -/
  | recvComplete (v slot : Nat)
  /-- DMA_DESCRIPTOR_COMPLETE (R121). -/
  | dmaDescriptorComplete (v eng : Nat)
  /-- CORE_STROKE_END_REACHED (R125). -/
  | coreStrokeEndReached (v : Nat)
  /-- STROKE_LAUNCH (R188). -/
  | strokeLaunch
  /-- HOLD_POINT (R197). -/
  | holdPoint
  /-- DECISION_TICK (R199). -/
  | decisionTick
  /-- STROKE_COMMIT (R190). -/
  | strokeCommit
  /-- HOLD (R198). -/
  | hold (n : Nat) (p : Prio)
  /-- STOP (R204). -/
  | stop (n : Nat) (p : Prio)
  /-- LAUNCH_CANCEL (R191). -/
  | launchCancel (n : Nat) (p : Prio)
  /-- BEACON (R180). -/
  | beacon (n : Nat) (p : Prio)
  /-- BEACON_SEND (R363). -/
  | beaconSend
  /-- BEACON_MISSED (R182). -/
  | beaconMissed
  /-- COORDINATOR_LAUNCH_START (R191). -/
  | coordinatorLaunchStart
  /-- LAUNCH_ACK_DEADLINE (R191). -/
  | launchAckDeadline
  /-- LAUNCH_WAIT_TIMEOUT (R427). -/
  | launchWaitTimeout
  /-- CROSSING_LATE_ARRIVAL (R176). -/
  | crossingLateArrival
  /-- DROOP_DETECTED (R174). -/
  | droopDetected (h : Nat)
  /-- PATROL_SCRUB (R150). -/
  | patrolScrub (addr : ScrubAt) (overwritten : Bool)
  /-- CHANNEL_SCORE_HALVING (R151). -/
  | channelScoreHalving
  /-- COPY_OUT_REMAP (R154). -/
  | copyOutRemap (d : Nat)
  /-- GRANULE_REPAIR_COMPLETE (R158). -/
  | granuleRepairComplete (addr : Nat) (bytes : List Byte)
  /-- REGISTER_WRITE (R491). -/
  | registerWrite (off : BarAt) (size : Nat) (value : DWord)
  /-- GTC_LO_READ (R178). -/
  | gtcLoRead (size : Nat)
  /-- POISON_LOG_READ (R492). -/
  | poisonLogRead (off size : Nat)
  /-- REGION_ENTRY_WRITE (R141). -/
  | regionEntryWrite (n w : Nat) (value : Word)
  /-- SRV_ENABLE (R236). -/
  | srvEnable
  /-- SRV_DISABLE (R278). -/
  | srvDisable
  /-- SRV_CONFIG_CHANGE (R259). -/
  | srvConfigChange (pageTokens mode : Nat)
  /-- ADAPTER_REGION_ENABLE (R297). -/
  | adapterRegionEnable (units count : Nat)
  /-- HOST_RING_HEAD_WRITE (R324). -/
  | hostRingHeadWrite (impression : Bool) (count : Word)
  /-- PROOF_RING_COPY (R324). -/
  | proofRingCopy
  /-- FUNCTION_ENABLE (R415). -/
  | functionEnable (f : Nat) (pci : FnPci) (table : Fetch)
  /-- FUNCTION_DISABLE (R436). -/
  | functionDisable (f : Nat) (cause : DisableCause)
  /-- FLR_COMPLETE (R439). -/
  | flrComplete (f : Nat)
  /-- PF0_FLR (R440). -/
  | pf0Flr
  /-- LIFECYCLE_ADVANCE (R458). -/
  | lifecycleAdvance (target confirm : Nat)
  /-- DOWNBIN (R20). -/
  | downbin (confirm : Nat)
  /-- SPARE_COMMIT (R29). -/
  | spareCommit (confirm : Nat)
  /-- REVOKE_KEY (R459). -/
  | revokeKey (key confirm : Nat)
  /-- ROLLBACK_ADVANCE (R448). -/
  | rollbackAdvance (count confirm : Nat)
  /-- TICK_ELIG_TOGGLE (R461). -/
  | tickEligToggle (confirm : Nat)
  /-- DEBUG_LOCK (R459). -/
  | debugLock (confirm : Nat)
  /-- DEBUG_RELOCK (R457). -/
  | debugRelock
  /-- FUSE_COMMAND_COMPLETE (R460). -/
  | fuseCommandComplete
  /-- FREEZE (R465). -/
  | freeze (path : GuardPath)
  /-- FENCE_ALL (R465). -/
  | fenceAll (path : GuardPath)
  /-- HOST_FLUSH (R465). -/
  | hostFlush (path : GuardPath)
  /-- DUMP (R465). -/
  | dump (path : GuardPath)
  /-- HEATH_RESET (R465). -/
  | heathReset (path : GuardPath)
  /-- ZEROIZE_KEYS (R465). -/
  | zeroizeKeys (path : GuardPath)
  /-- ZEROIZE_PLATES (R465). -/
  | zeroizePlates (path : GuardPath)
  /-- ZEROIZE_DDR (R465). -/
  | zeroizeDdr (path : GuardPath)
  /-- POWER_OFF (R473). -/
  | powerOff (path : GuardPath)
  /-- GUARD_OP_COMPLETE (R464). -/
  | guardOpComplete
  /-- HEATH_CONTROLLER_TIMEOUT (R466). -/
  | heathControllerTimeout (h : Nat) (recovers : Bool)
  /-- LINK_ENABLE (R343). -/
  | linkEnable (n : Nat)
  /-- LINK_DISABLE (R344). -/
  | linkDisable (n : Nat)
  /-- LINK_FENCE (R373). -/
  | linkFence (n : Nat) (elec : Bool)
  /-- LINK_UNFENCE (R374). -/
  | linkUnfence (n : Nat)
  /-- LINK_REDISCOVER (R355). -/
  | linkRediscover (n : Nat)
  /-- TRAINING_COMPLETE (R346). -/
  | trainingComplete (n : Nat) (failed : BitVec 9) (delay : Nat)
  /-- TRAINING_TIMEOUT (R343). -/
  | trainingTimeout (n : Nat)
  /-- RECORD (R348). -/
  | record (n : Nat) (r : Disc)
  /-- LINK_VERDICT (R353). -/
  | linkVerdict (n verdict reason : Nat)
  /-- REDISCOVER (R355). -/
  | rediscover (n : Nat)
  /-- DISCOVERY_REPEAT (R348). -/
  | discoveryRepeat (n : Nat)
  /-- DISCOVERY_TIMEOUT (R343). -/
  | discoveryTimeout (n : Nat)
  /-- FLIT_SLOT_TRANSMIT (R360). -/
  | flitSlotTransmit (n : Nat)
  /-- FLIT_RECEIVE (R369). -/
  | flitReceive (n slot : Nat) (f : RxFlit)
  /-- REPLAY_TIMER_EXPIRY (R370). -/
  | replayTimerExpiry (n : Nat)
  /-- LANE_LOCK_LOSS (R371). -/
  | laneLockLoss (n lane : Nat)
  /-- RETRAIN_COMPLETE (R371). -/
  | retrainComplete (n : Nat) (r : RetrainEnd)
  /-- PORT_ENGINE_FAULT (R376). -/
  | portEngineFault (e : Nat)
  /-- PACKET_FORWARD (R386). -/
  | packetForward (n vc : Nat)
  /-- DATA (R384). -/
  | data (p : Packet)
  /-- READ_REQ (R383). -/
  | readReq (p : Packet)
  /-- WRITE_REQ (R383). -/
  | writeReq (p : Packet)
  /-- READ_RESP (R390). -/
  | readResp (p : Packet)
  /-- WRITE_ACK (R390). -/
  | writeAck (p : Packet)
  /-- WINDOW (R389). -/
  | window (p : Packet)
  /-- COLL (R392). -/
  | coll (id rank : Nat) (bytes : List Byte)
  /-- REQUEST_TIMEOUT (R390). -/
  | requestTimeout (tag : Nat)
  /-- CONGESTION_MAP_LATCH (R393). -/
  | congestionMapLatch
  /-- CONG_MAP (R393). -/
  | congMap (a : Auth) (map : List Byte)
  /-- PLAN_WRITE (R381). -/
  | planWrite (a : Auth) (part : PlanPart)
  /-- PLAN_COMMIT (R381). -/
  | planCommit (a : Auth) (digest key : Digest)
  /-- TEARDOWN (R402). -/
  | teardown (a : Auth)
  /-- TEARDOWN_COMPLETE (R402). -/
  | teardownComplete
  /-- FENCE_PORTS (R399). -/
  | fencePorts (a : Auth) (links : BitVec 36) (elec : Bool)
  /-- FENCE_DEVICE (R400). -/
  | fenceDevice (a : Auth)
  /-- UNFENCE (R400). -/
  | unfence (a : Auth)
  /-- REG_READ (R493). -/
  | regRead (a : Auth) (off size : Nat)
  /-- REG_WRITE (R493). -/
  | regWrite (a : Auth) (off size : Nat) (value : DWord)
  /-- RESPONSE (R394). -/
  | response (a : Auth) (status : Nat)
  /-- LAUNCH (R396). -/
  | launch (a : Auth) (r : LaunchRec)
  /-- LAUNCH_ANSWER (R191). -/
  | launchAnswer (a : Auth) (status : Nat)
  /-- ABORT (R397). -/
  | abort (a : Auth)
  /-- STOP_POINT (R397). -/
  | stopPoint
  /-- READY (R287). -/
  | ready (a : Auth) (m : ReadyMsg)
  /-- READY_TIMEOUT (R287). -/
  | readyTimeout
  /-- LOAD_LEAF_RECEIVED (R287). -/
  | loadLeafReceived (leaf : Nat) (data : FetchBytes) (far : Bool)
  /-- VERDICT (R287). -/
  | verdict (a : Auth) (member status : Nat)
  /-- DRAINED (R291). -/
  | drained (a : Auth) (member step : Nat)
  /-- LEAF_HASHES (R306). -/
  | leafHashes (a : Auth) (member first : Nat) (hashes : List Digest)
  /-- MANIFEST (R308). -/
  | manifest (a : Auth) (bytes : List Byte)
  /-- PAIR (R334). -/
  | pair (a : Auth) (m : PairMsg)
  /-- PAIR_HEAD_TIMEOUT (R336). -/
  | pairHeadTimeout
  /-- PAIR_BINDING_TIMEOUT (R333). -/
  | pairBindingTimeout
  /-- DOORBELL_SNOOP (R418). -/
  | doorbellSnoop (f r tail : Nat) (head : HeadRead)
  /-- DOORBELL_POLL (R410): the lines that the poll reads, in columns: function, ring, tail and head word. -/
  | doorbellPoll (f r tail : List Nat) (head : List HeadRead)
  /-- SUBMIT_REQUEST (R239). -/
  | submitRequest (f r : Nat) (d : BitVec 512) (args prompt resume : Fetch)
  /-- CANCEL (R276). -/
  | cancel (f r : Nat) (d : BitVec 512)
  /-- LOAD_MODEL (R288). -/
  | loadModel (f r : Nat) (d : BitVec 512) (args : Fetch)
  /-- SWAP_MODEL (R290). -/
  | swapModel (f r : Nat) (d : BitVec 512) (args : Fetch)
  /-- LOAD_ADAPTER (R301). -/
  | loadAdapter (f r : Nat) (d : BitVec 512) (args : Fetch)
  /-- RETIRE_ADAPTER (R302). -/
  | retireAdapter (f r : Nat) (d : BitVec 512)
  /-- SET_BUDGET (R264). -/
  | setBudget (f r : Nat) (d : BitVec 512)
  /-- LAUNCH_PROGRAM (R427). -/
  | launchProgram (f r : Nat) (d : BitVec 512) (args : Fetch) (image : FetchBytes)
  /-- ABORT_PROGRAM (R397). -/
  | abortProgram (f r : Nat) (d : BitVec 512)
  /-- QUERY (R425). -/
  | query (f r : Nat) (d : QueryDesc)
  /-- IMAGE_LOAD (R228). -/
  | imageLoad
  /-- LOAD_PATH_NEXT (R284). -/
  | loadPathNext
  /-- ADAPTER_WAIT_TIMEOUT (R301). -/
  | adapterWaitTimeout
  /-- SLOT_ZEROING_COMPLETE (R289). -/
  | slotZeroingComplete (n : Nat)
  /-- ADAPTER_ZEROING_COMPLETE (R300). -/
  | adapterZeroingComplete (n : Nat)
  /-- PAGE_ZEROING_COMPLETE (R257). -/
  | pageZeroingComplete (unit : FallowUnit)
  /-- INTAKE_COMPLETE (R241). -/
  | intakeComplete (req : Nat)
  /-- BOUNDARY_START (R247). -/
  | boundaryStart
  /-- JOURNAL_WRITE_COMPLETE (R273). -/
  | journalWriteComplete
  /-- COMPLETION_RING_ROOM (R430). -/
  | completionRingRoom (f r : Nat) (head : HeadRead)
  /-- EVENT_LOST (R431). -/
  | eventLost (f : Nat) (head : HeadRead)
  /-- INTERRUPT_COALESCE_TIMEOUT (R432). -/
  | interruptCoalesceTimeout (f r : Nat)
  /-- MSIX_UNMASK (R432). -/
  | msixUnmask (f vec : Nat)
  /-- HEAD_SIGN (R327). -/
  | headSign
  /-- HOST_SHARED_ACCESS (R434). -/
  | hostSharedAccess (write : Bool) (dpa : Nat) (bytes : List Byte)
  /-- SPDM_REQUEST (R451). -/
  | spdmRequest (version : Nat) (m : SpdmMsg)
  /-- KEY_EXCHANGE (R453). -/
  | keyExchange (session : Nat) (anchor : Digest) (valid : Bool)
  /-- GET_MEASUREMENTS (R454). -/
  | getMeasurements (index : MeasAsk)
  /-- DEBUG_TOKEN_SUBMIT (R456). -/
  | debugTokenSubmit (token : List Byte)
  /-- DEBUG_UNLOCK_EXPIRY (R457). -/
  | debugUnlockExpiry
  /-- STILE_WATCHDOG_EXPIRY (R444). -/
  | stileWatchdogExpiry (upsets : List (Nat × BitVec 72))
  /-- FW_LOAD (R446). -/
  | fwLoad (image : List Byte)
  /-- COLD_RESET (R483). -/
  | coldReset (strap : BitVec 4) (d49Lost : Bool)
  /-- BOOT_ROM_START (R447). -/
  | bootRomStart (slotA slotB : FetchBytes)
  /-- BRING_UP_START (R471). -/
  | bringUpStart
  /-- HEATH_SWITCH_ON (R471). -/
  | heathSwitchOn (h : Nat)
  /-- POWER_GOOD_TIMEOUT (R472). -/
  | powerGoodTimeout (h : Nat)
  /-- HEATH_SELF_TEST_DONE (R471). -/
  | heathSelfTestDone (h : Nat) (r : SelfTest)
  /-- CHANNEL_TRAINING_DONE (R471). -/
  | channelTrainingDone (c : Nat) (ok : Bool)
  /-- DDR_INIT_ZERO_DONE (R471). -/
  | ddrInitZeroDone
  /-- WARM_RESET (R484). -/
  | warmReset
  /-- POWER_GOOD_LOSS (R503). -/
  | powerGoodLoss (e : PgEdge)
  /-- REFCLK_LOSS (R503). -/
  | refclkLoss (tick : Bool)
  /-- HEATH_LOSS (R30). -/
  | heathLoss (h cause : Nat)
  /-- RIM_DIE_LOSS (R33). -/
  | rimDieLoss (d : Nat)
  /-- THERMAL_LEVEL_RISE (R479). -/
  | thermalLevelRise (h temp : Nat)
  /-- THERMAL_LEVEL_FALL (R479). -/
  | thermalLevelFall (h temp : Nat)
  /-- THERMAL_TRIP (R479). -/
  | thermalTrip (sensor temp : Nat)
  /-- POWER_CAP_INTERVAL (R480). -/
  | powerCapInterval (m : Telemetry)
  /-- PCAP_ASSERT (R480). -/
  | pcapAssert
  /-- AVS_VID_RAISE (R476). -/
  | avsVidRaise (h : Nat)
  /-- AVS_VID_LOWER (R476). -/
  | avsVidLower (h : Nat)
  /-- AVS_FAULT (R477). -/
  | avsFault (h : Nat)
  /-- MCTP_POWER_CAP (R481). -/
  | mctpPowerCap (m : MctpCap)
  /-- PCAP_DEASSERT (R480). -/
  | pcapDeassert
  /-- HOST_PORT_LINK_TRAINED (R409). -/
  | hostPortLinkTrained (l : HostLink)
  /-- HDM_DECODER_COMMIT (R433). -/
  | hdmDecoderCommit
  deriving DecidableEq, Repr

end Sys2Proof
end

