-- ==== Sys2Proof/Machine/FMap.lean ====
section
/-! DEFINITION. Reading and writing the sparse numbered maps in their canonical form, and the small list and bit helpers that the rest of the machine uses. -/

namespace Sys2Proof.Machine

open Sys2Proof

/-- The entry of key `k`: the default `d` where none is listed. -/
def look {α : Type} (d : α) : FMap α → Nat → α
  | [], _ => d
  | (k', v) :: m, k => if k' = k then v else look d m k

/-- The map without the entry of key `k`. -/
def drop1 {α : Type} : FMap α → Nat → FMap α
  | [], _ => []
  | (k', v) :: m, k => if k' = k then drop1 m k else (k', v) :: drop1 m k

/-- `m` with `(k, v)` listed in its place among the rising keys. -/
def ins1 {α : Type} : FMap α → Nat → α → FMap α
  | [], k, v => [(k, v)]
  | (k', v') :: m, k, v =>
    if k < k' then (k, v) :: (k', v') :: m
    else if k = k' then (k, v) :: m
    else (k', v') :: ins1 m k v

/-- `m` with entry `k` holding `v`; the default is not listed. -/
def put {α : Type} [DecidableEq α] (d : α) (m : FMap α) (k : Nat) (v : α) : FMap α :=
  if v = d then drop1 m k else ins1 m k v

/-- The keys of the map rise strictly, beginning at `lo` or above. -/
def keysFrom {α : Type} : Nat → FMap α → Bool
  | _, [] => true
  | lo, (k, _) :: m => decide (lo ≤ k) && keysFrom (k + 1) m

/-- No listed entry equals the default. -/
def noDefault {α : Type} [DecidableEq α] (d : α) : FMap α → Bool
  | [] => true
  | (_, v) :: m => decide (v ≠ d) && noDefault d m

/-- The canonical form of a map: strictly rising keys, no entry at the default. -/
def canon {α : Type} [DecidableEq α] (d : α) (m : FMap α) : Bool :=
  keysFrom 0 m && noDefault d m

/-- The map without the entries of keys `lo` to `hi − 1`. -/
def dropRange {α : Type} (m : FMap α) (lo hi : Nat) : FMap α :=
  m.filter fun p => decide (p.1 < lo ∨ hi ≤ p.1)

/-- Writes `vs` to the keys from `k` on. -/
def putList {α : Type} [DecidableEq α] (d : α) (m : FMap α) (k : Nat) : List α → FMap α
  | [] => m
  | v :: vs => putList d (put d m k v) (k + 1) vs

/-- The entries of the `n` keys from `k` on. -/
def lookList {α : Type} (d : α) (m : FMap α) (k : Nat) : Nat → List α
  | 0 => []
  | n + 1 => look d m k :: lookList d m (k + 1) n

/-- `f` applied to entry `k`. -/
def upd {α : Type} [DecidableEq α] (d : α) (m : FMap α) (k : Nat) (f : α → α) : FMap α :=
  put d m k (f (look d m k))

/-! ### Lists -/

/-- Element `i` of a list, or a default. -/
def nth {α : Type} (d : α) (l : List α) (i : Nat) : α := l.getD i d

/-- The list with element `i` replaced (unchanged where there is none). -/
def setNth {α : Type} (l : List α) (i : Nat) (v : α) : List α := l.set i v

/-- The first element that satisfies `p`, and the list without it. -/
def takeFirst {α : Type} (p : α → Bool) : List α → Option (α × List α)
  | [] => none
  | a :: l =>
    if p a then some (a, l)
    else match takeFirst p l with
      | none => none
      | some (b, r) => some (b, a :: r)

/-- The least number below `n` that satisfies `p`. -/
def least (p : Nat → Bool) (n : Nat) : Option Nat := (List.range n).find? p

/-- The list cut into pieces of `k` elements, `n` of them. -/
def chunks {α : Type} (k : Nat) : Nat → List α → List (List α)
  | 0, _ => []
  | n + 1, l => l.take k :: chunks k n (l.drop k)

/-! ### Bits and bytes -/

/-- Bits `[hi:lo]` of a number. -/
def bits (w hi lo : Nat) : Nat := (w >>> lo) % 2 ^ (hi + 1 - lo)

/-- Bit `i` of a number. -/
def bit (w i : Nat) : Bool := w.testBit i

/-- `n` bytes of a number, least significant first (little-endian, R5). -/
def leBytes : Nat → Nat → List Byte
  | 0, _ => []
  | n + 1, w => BitVec.ofNat 8 w :: leBytes n (w / 256)

/-- `n` bytes of a number, most significant first. -/
def beBytes (n w : Nat) : List Byte := (leBytes n w).reverse

/-- The number that bytes spell, least significant first. -/
def leNat : List Byte → Nat
  | [] => 0
  | b :: bs => b.toNat + 256 * leNat bs

/-- The number that bytes spell, most significant first. -/
def beNat (bs : List Byte) : Nat := bs.foldl (fun a b => 256 * a + b.toNat) 0

/-- A count that stops at `2 ^ w − 1`. -/
def satInc (w n : Nat) : Nat := if n + 1 < 2 ^ w then n + 1 else 2 ^ w - 1

/-- A number that stops at `2 ^ w − 1`. -/
def satTo (w n : Nat) : Nat := if n < 2 ^ w then n else 2 ^ w - 1

/-- The signed value of a `w`-bit number. -/
def signedOf (w n : Nat) : Int :=
  let m := n % 2 ^ w
  if m < 2 ^ (w - 1) then (m : Int) else (m : Int) - (2 ^ w : Nat)

/-- The `w` bits of a signed value. -/
def bitsOf (w : Nat) (i : Int) : Nat := (i % (2 ^ w : Nat)).toNat

/-- A number as a 64-bit word. -/
def dw (n : Nat) : DWord := BitVec.ofNat 64 n

/-- A set bit as a number. -/
def b2n (b : Bool) : Nat := if b then 1 else 0

end Sys2Proof.Machine
end

