-- ==== Sys2Proof/Machine/Flags.lean ====
section
/-! DEFINITION. Exact arithmetic on the element formats, the rounding modes, the conversions and the sticky exception flags (02, R36 to R66, R513). -/

namespace Sys2Proof.Machine

open Sys2Proof

/-! ### The flag word (table after R67) -/

def fINV : Word := 0x01#32
def fDZ : Word := 0x02#32
def fOF : Word := 0x04#32
def fUF : Word := 0x08#32
def fNX : Word := 0x10#32
def fSAT : Word := 0x20#32
def fNANIN : Word := 0x40#32
def fPRESS : Word := 0x100#32
def fVEC : Word := 0x200#32
def fDMA : Word := 0x400#32

/-- `fl` with the unit's source bit when it holds a flag (R66). -/
def withSrc (src fl : Word) : Word := if fl &&& 0x7F#32 = 0#32 then fl else fl ||| src

/-- A flag when a condition holds. -/
def fIf (c : Bool) (fl : Word) : Word := if c then fl else 0#32

/-! ### Exact values -/

/-- An exact value: `fin neg m e` is ±m · 2^e, a zero keeping its sign. -/
inductive FVal where
  | nan
  | inf (neg : Bool)
  | fin (neg : Bool) (m : Nat) (e : Int)
  deriving DecidableEq, Repr

def FVal.isNan : FVal → Bool
  | .nan => true
  | _ => false

def FVal.isInf : FVal → Bool
  | .inf _ => true
  | _ => false

def FVal.isZero : FVal → Bool
  | .fin _ 0 _ => true
  | _ => false

def FVal.sign : FVal → Bool
  | .nan => false
  | .inf n => n
  | .fin n _ _ => n

def FVal.neg : FVal → FVal
  | .nan => .nan
  | .inf n => .inf (!n)
  | .fin n m e => .fin (!n) m e

/-- The value times 2^k. -/
def FVal.scale (k : Int) : FVal → FVal
  | .fin n m e => .fin n m (e + k)
  | v => v

/-- The value of an integer times 2^e. -/
def FVal.ofInt (i : Int) (e : Int) : FVal := .fin (decide (i < 0)) i.natAbs e

/-- ±m · 2^(e − e0) as an integer, for `e0 ≤ e`. -/
def shiftedInt (n : Bool) (m : Nat) (e e0 : Int) : Int :=
  let a : Int := (m <<< (e - e0).toNat : Nat)
  if n then -a else a

/-- The exact sum (R49, R50), with INV for +Inf and −Inf. -/
def FVal.add : FVal → FVal → FVal × Word
  | .nan, _ => (.nan, 0#32)
  | _, .nan => (.nan, 0#32)
  | .inf a, .inf b => if a = b then (.inf a, 0#32) else (.nan, fINV)
  | .inf a, _ => (.inf a, 0#32)
  | _, .inf b => (.inf b, 0#32)
  | .fin a m e, .fin b k f =>
    if m = 0 ∧ k = 0 then (.fin (a && b) 0 0, 0#32)
    else if m = 0 then (.fin b k f, 0#32)
    else if k = 0 then (.fin a m e, 0#32)
    else
      let e0 := if e ≤ f then e else f
      let t := shiftedInt a m e e0 + shiftedInt b k f e0
      (.fin (decide (t < 0)) t.natAbs e0, 0#32)

/-- The exact product, with INV for Inf × 0 (R50). -/
def FVal.mul : FVal → FVal → FVal × Word
  | .nan, _ => (.nan, 0#32)
  | _, .nan => (.nan, 0#32)
  | .inf a, .inf b => (.inf (a != b), 0#32)
  | .inf a, .fin b k _ => if k = 0 then (.nan, fINV) else (.inf (a != b), 0#32)
  | .fin a m _, .inf b => if m = 0 then (.nan, fINV) else (.inf (a != b), 0#32)
  | .fin a m e, .fin b k f => (.fin (a != b) (m * k) (e + f), 0#32)

/-- Whether x < y, for values that are not NaN; the two zeros are equal. -/
def FVal.lt (x y : FVal) : Bool :=
  match x, y with
  | .nan, _ => false
  | _, .nan => false
  | .inf a, .inf b => a && !b
  | .inf a, _ => a
  | _, .inf b => !b
  | .fin a m e, .fin b k f =>
    let e0 := if e ≤ f then e else f
    decide (shiftedInt a m e e0 < shiftedInt b k f e0)

/-! ### The floating-point formats (R36) -/

/-- What an element code beyond the max finite says. -/
inductive Special where
  | ieee    -- Inf next, then NaN
  | e4m3    -- one NaN, no Inf
  | none
  deriving DecidableEq, Repr

/-- A floating-point format: width, significand bits with the hidden one, exponent of the least
subnormal, code of the max finite, its specials and its canonical NaN (R36, R38). -/
structure FloatFmt where
  width   : Nat
  p       : Nat
  qmin    : Int
  maxCode : Nat
  special : Special
  canon   : Nat
  deriving DecidableEq, Repr

def FP32 : FloatFmt := ⟨32, 24, -149, 0x7F7FFFFF, .ieee, 0x7FC00000⟩
def BF16 : FloatFmt := ⟨16, 8, -133, 0x7F7F, .ieee, 0x7FC0⟩
def FP16 : FloatFmt := ⟨16, 11, -24, 0x7BFF, .ieee, 0x7E00⟩
def E4M3 : FloatFmt := ⟨8, 4, -9, 0x7E, .e4m3, 0x7F⟩
def E5M2 : FloatFmt := ⟨8, 3, -16, 0x7B, .ieee, 0x7E⟩
def E2M3 : FloatFmt := ⟨6, 4, -3, 0x1F, .none, 0⟩
def E3M2 : FloatFmt := ⟨6, 3, -4, 0x1F, .none, 0⟩
def E2M1 : FloatFmt := ⟨4, 2, -1, 0x7, .none, 0⟩

/-- The format of an ELEM code of R40 that names a floating-point format. -/
def floatFmt : Nat → Option FloatFmt
  | 0 => some FP32
  | 1 => some BF16
  | 2 => some FP16
  | 3 => some E4M3
  | 4 => some E5M2
  | 5 => some E2M3
  | 6 => some E3M2
  | 7 => some E2M1
  | _ => none

/-- The width in bits of an element of ELEM code (R36, R40). -/
def elemWidth : Nat → Nat
  | 0 => 32
  | 1 => 16
  | 2 => 16
  | 3 => 8
  | 4 => 8
  | 5 => 6
  | 6 => 6
  | 7 => 4
  | 8 => 8
  | 9 => 32
  | _ => 0

/-- The value that a code of a floating-point format stands for. -/
def decodeFloat (f : FloatFmt) (code : Nat) : FVal :=
  let n := code.testBit (f.width - 1)
  let c := code % 2 ^ (f.width - 1)
  if c ≤ f.maxCode then
    let ex := c >>> (f.p - 1)
    let fr := c % 2 ^ (f.p - 1)
    if ex = 0 then .fin n fr f.qmin
    else .fin n (2 ^ (f.p - 1) + fr) (f.qmin + ex - 1)
  else match f.special with
    | .ieee => if c = f.maxCode + 1 then .inf n else .nan
    | _ => .nan

/-- The value of an element code: floats of R36, INT8 and INT32 as integers. -/
def decodeElem (elem code : Nat) : FVal :=
  match floatFmt elem with
  | some f => decodeFloat f code
  | none => .ofInt (signedOf (elemWidth elem) code) 0

/-- The value of an element of an MX block under its scale byte (R44; INT8 elements count 2^-6). -/
def decodeMx (elem code scale : Nat) : FVal :=
  if scale = 0xFF then .nan
  else (decodeElem elem code).scale ((scale : Int) - 127 - (if elem = 8 then 6 else 0))

/-! ### Rounding (R41, R59) -/

/-- m / 2^sh as an integer under RMODE (0 RNE, 1 RTZ, 2 SR with the element's random word), and
whether it is inexact. -/
def roundShift (rmode rword m sh : Nat) : Nat × Bool :=
  let q := m >>> sh
  let f := m % 2 ^ sh
  if f = 0 then (q, false)
  else
    let up := match rmode with
      | 0 => decide (2 ^ sh < 2 * f) || (decide (2 * f = 2 ^ sh) && q.testBit 0)
      | 1 => false
      | _ => decide (rword < (f <<< 32) >>> sh)
    (if up then q + 1 else q, true)

/-- m · 2^e to a multiple of 2^q: the multiple, and whether it is inexact. -/
def roundTo (rmode rword m : Nat) (e q : Int) : Nat × Bool :=
  if q ≤ e then (m <<< (e - q).toNat, false) else roundShift rmode rword m (q - e).toNat

/-- A magnitude m · 2^e, m ≠ 0, rounded to format `f` with unbounded exponent: its code counted
without a limit, whether it is inexact and whether it was below the min normal (R55, R56). -/
def roundMag (f : FloatFmt) (rmode rword m : Nat) (e : Int) : Nat × Bool × Bool :=
  let top : Int := (Nat.log2 m : Int) + e
  let q0 := top + 1 - f.p
  let q := if q0 < f.qmin then f.qmin else q0
  let (k, inexact) := roundTo rmode rword m e q
  ((q - f.qmin).toNat * 2 ^ (f.p - 1) + k, inexact, decide (q0 < f.qmin))

/-- The sign bit of a code. -/
def signBit (f : FloatFmt) (n : Bool) : Nat := if n then 2 ^ (f.width - 1) else 0

/-- The conversion of an exact value to a floating-point format (R54 to R56), with its flags. -/
def toFloat (f : FloatFmt) (rmode : Nat) (sat : Bool) (rword : Nat) (v : FVal) : Nat × Word :=
  match v with
  | .nan => match f.special with
    | .none => (0, fINV ||| fNX)
    | _ => (f.canon, 0#32)
  | .inf n => match f.special with
    | .ieee => (signBit f n + f.maxCode + 1, 0#32)
    | .e4m3 => if sat then (signBit f n + f.maxCode, fINV ||| fNX) else (f.canon, fINV ||| fNX)
    | .none => (signBit f n + f.maxCode, fINV ||| fNX)
  | .fin n m e =>
    if m = 0 then (signBit f n, 0#32)
    else
      let (c, inexact, tiny) := roundMag f rmode rword m e
      if f.maxCode < c then
        let fl := fOF ||| fNX
        if sat then (signBit f n + f.maxCode, fl)
        else match f.special with
          | .none => (signBit f n + f.maxCode, fl)
          | .e4m3 => (f.canon, fl)
          | .ieee => if rmode = 1 then (signBit f n + f.maxCode, fl)
                     else (signBit f n + f.maxCode + 1, fl)
      else (signBit f n + c, fIf inexact fNX ||| fIf (inexact && tiny) fUF)

/-- The conversion of an exact value to a `w`-bit integer, saturating (R54, R513). An integer format has no
smallest normal number, so UF is never set (R56; log 27). -/
def toInt (w rmode rword : Nat) (v : FVal) : Nat × Word :=
  let hi : Int := (2 ^ (w - 1) : Nat) - 1
  let lo : Int := -((2 ^ (w - 1) : Nat) : Int)
  match v with
  | .nan => (0, fINV ||| fNX)
  | .inf n => (bitsOf w (if n then lo else hi), fINV ||| fNX)
  | .fin n m e =>
    let (k, inexact) := roundTo rmode rword m e 0
    let i : Int := if n then -(k : Int) else k
    if hi < i then (bitsOf w hi, fSAT ||| fNX)
    else if i < lo then (bitsOf w lo, fSAT ||| fNX)
    else (bitsOf w i, fIf inexact fNX)

/-- The conversion of an exact value to an element of a plain format (R54). -/
def toElem (elem rmode : Nat) (sat : Bool) (rword : Nat) (v : FVal) : Nat × Word :=
  match floatFmt elem with
  | some f => toFloat f rmode sat rword v
  | none => toInt (elemWidth elem) rmode rword v

/-- The FP32 value of a word. -/
def fp (w : Word) : FVal := decodeFloat FP32 w.toNat

def isNan32 (w : Word) : Bool := (fp w).isNan

/-- An exact value as FP32, rounded with RNE. -/
def rne32 (v : FVal) : Word × Word :=
  let (c, fl) := toFloat FP32 0 false 0 v
  (BitVec.ofNat 32 c, fl)

/-! ### MX conversion (R57) -/

/-- The emax of an MX element type. -/
def elemEmax : Nat → Int
  | 3 => 8
  | 4 => 15
  | 5 => 2
  | 6 => 4
  | 7 => 2
  | _ => 0

/-- The exponent of the binade of a finite value that is not zero. -/
def binade : FVal → Option Int
  | .fin _ m e => if m = 0 then none else some ((Nat.log2 m : Int) + e)
  | _ => none

/-- The greatest binade of the finite values that are not zero. -/
def maxBinade : List FVal → Option Int
  | [] => none
  | v :: vs => match binade v, maxBinade vs with
    | none, r => r
    | some a, none => some a
    | some a, some b => some (if a ≤ b then b else a)

/-- One element of an MX block, the value already divided by 2^e. -/
def mxElem (elem rmode rword : Nat) (v : FVal) : Nat × Word :=
  if elem = 8 then
    let (c, fl) := toInt 8 rmode rword (v.scale 6)
    (c, if fl &&& fSAT = 0#32 then fl else fOF ||| fNX)
  else toElem elem rmode true rword v

/-- The elements of an MX block and the union of their flags. -/
def mxElems (elem rmode : Nat) (e : Int) : List FVal → List Nat → List Nat × Word
  | [], _ => ([], 0#32)
  | v :: vs, ws =>
    let (c, fl) := mxElem elem rmode (ws.headD 0) (v.scale (-e))
    let (cs, fls) := mxElems elem rmode e vs ws.tail
    (c :: cs, fl ||| fls)

/-- The signed zero of an MX element type; an Inf of an E5M2 block stays. -/
def mxZero (elem : Nat) (v : FVal) : Nat :=
  if elem = 8 then 0 else (toElem elem 0 true 0 v).1

/-- 32 FP32 values as one MX block: scale byte, element codes, flags (R57). -/
def mxBlock (elem rmode : Nat) (words : List Nat) (xs : List FVal) : Nat × List Nat × Word :=
  if xs.any (fun v => v.isNan || (v.isInf && elem != 4)) then
    (0xFF, xs.map fun _ => 0, fINV)
  else match maxBinade xs with
    | none => (0x7F, xs.map (mxZero elem), 0#32)
    | some b =>
      let e0 := b - elemEmax elem
      let e := if e0 < -127 then -127 else if 127 < e0 then 127 else e0
      let (cs, fl) := mxElems elem rmode e xs words
      ((e + 127).toNat, cs, fl)

/-! ### Philox-4x32-10 (R313) -/

/-- The state of the generator: counter words c0 to c3 and key words k0, k1. -/
structure Philox where
  c0 : Word
  c1 : Word
  c2 : Word
  c3 : Word
  k0 : Word
  k1 : Word
  deriving DecidableEq, Repr

/-- One round, the key raised after it. -/
def philoxRound (x : Philox) : Philox :=
  let p0 := 0xD2511F53 * x.c0.toNat
  let p1 := 0xCD9E8D57 * x.c2.toNat
  { c0 := BitVec.ofNat 32 (p1 >>> 32) ^^^ x.c1 ^^^ x.k0
    c1 := BitVec.ofNat 32 p1
    c2 := BitVec.ofNat 32 (p0 >>> 32) ^^^ x.c3 ^^^ x.k1
    c3 := BitVec.ofNat 32 p0
    k0 := x.k0 + 0x9E3779B9#32
    k1 := x.k1 + 0xBB67AE85#32 }

/-- `n` rounds. -/
def philoxRounds : Nat → Philox → Philox
  | 0, x => x
  | n + 1, x => philoxRounds n (philoxRound x)

/-- The output block of a key and a 128-bit counter. -/
def philox (key : DWord) (counter : BitVec 128) : List Word :=
  let c := counter.toNat
  let x := philoxRounds 10
    { c0 := BitVec.ofNat 32 c, c1 := BitVec.ofNat 32 (c >>> 32)
      c2 := BitVec.ofNat 32 (c >>> 64), c3 := BitVec.ofNat 32 (c >>> 96)
      k0 := BitVec.ofNat 32 key.toNat, k1 := BitVec.ofNat 32 (key.toNat >>> 32) }
  [x.c0, x.c1, x.c2, x.c3]

/-- The random words of `q` groups of four from counter offset `base` on (R60, R108). -/
def randQuads (key stream base : DWord) : Nat → List Word
  | 0 => []
  | n + 1 => philox key (stream ++ base) ++ randQuads key stream (base + 1#64) n

/-- The random words of elements 0 to n − 1 of an instruction (R60, R108): the context holds the key
in [63:0] and the stream in [127:64]. -/
def randWords (ctx : BitVec 128) (base : DWord) (n : Nat) : List Word :=
  (randQuads (ctx.extractLsb' 0 64) (ctx.extractLsb' 64 64) base ((n + 3) / 4)).take n

/-! ### Lane operations (R61, R62, tables of R106) -/

/-- An FP32 result of an exact value under CVT. -/
def fpResult (rmode : Nat) (sat : Bool) (rword : Nat) (v : FVal) (fl : Word) : Word × Word :=
  let (c, g) := toFloat FP32 rmode sat rword v
  (BitVec.ofNat 32 c, fl ||| g)

def fpAdd (rmode : Nat) (sat : Bool) (rword : Nat) (a b : Word) : Word × Word :=
  let (v, fl) := (fp a).add (fp b)
  fpResult rmode sat rword v fl

def fpMul (rmode : Nat) (sat : Bool) (rword : Nat) (a b : Word) : Word × Word :=
  let (v, fl) := (fp a).mul (fp b)
  fpResult rmode sat rword v fl

/-- a × b + c rounded once; INV only where no operand is a NaN (R66). -/
def fpFma (rmode : Nat) (sat : Bool) (rword : Nat) (a b c : Word) : Word × Word :=
  let (p, f1) := (fp a).mul (fp b)
  let (v, f2) := p.add (fp c)
  fpResult rmode sat rword v (if isNan32 c then 0#32 else f1 ||| f2)

/-- minimumNumber and maximumNumber of IEEE 754-2019, −0 below +0 (R62). -/
def fpMinMax (max : Bool) (a b : Word) : Word :=
  if isNan32 a && isNan32 b then 0x7FC00000#32
  else if isNan32 a then b
  else if isNan32 b then a
  else
    let less := if (fp a).isZero && (fp b).isZero then (fp a).sign && !(fp b).sign
      else (fp a).lt (fp b)
    if max then (if less then b else a) else (if less then a else
      (if (fp a).isZero && (fp b).isZero then (if (fp b).sign then b else a)
       else if (fp b).lt (fp a) then b else a))

/-- Saturating INT32 addition (R51, IADD). -/
def iAdd (a b : Word) : Word × Word :=
  let t := a.toInt + b.toInt
  if 2147483647 < t then (0x7FFFFFFF#32, fSAT ||| fNX)
  else if t < -2147483648 then (0x80000000#32, fSAT ||| fNX)
  else (BitVec.ofInt 32 t, 0#32)

/-- a × 2^b, b an INT32 lane, rounded once. Beyond 2^±1000 the result changes no more. -/
def fpScale (rmode : Nat) (sat : Bool) (rword : Nat) (a b : Word) : Word × Word :=
  let k := b.toInt
  let k := if k < -1000 then -1000 else if 1000 < k then 1000 else k
  fpResult rmode sat rword ((fp a).scale k) 0#32

/-- Comparison codes of VMASK: EQ, NE, LT, LE (R62). -/
def fpCmp (fn : Nat) (a b : Word) : Bool :=
  if isNan32 a || isNan32 b then fn == 1
  else
    let lt := (fp a).lt (fp b)
    let gt := (fp b).lt (fp a)
    match fn with
    | 0 => !lt && !gt
    | 1 => lt || gt
    | 2 => lt
    | _ => !gt

end Sys2Proof.Machine
end

