-- ==== Sys2Proof/Machine/State.lean ====
section
/-! DEFINITION. The state of one Gewen: every register, buffer, queue, table and pin the manual gives it, as plain data, and the state after reset. Each field's comment names the file and rule that gives it, its width and its reset value. -/

namespace Sys2Proof.Machine

open Sys2Proof

/-- Byte memory under the (72,64) code of R144. `cells` lists the stored data bytes by address, strictly
rising, without entries equal to what an unlisted byte reads as (0). `flips` lists, by 8-byte word number,
how the stored 72 bits differ from a clean codeword of the data in `cells`: data bits 0 to 63, check
bits 64 to 71; no entry is zero. -/
structure Mem where
  cells : List Host.Cell := []           -- 05 R133, R138; reset: nothing listed
  flips : FMap (BitVec 72) := []         -- 05 R144 to R146; reset: nothing listed
  deriving DecidableEq, Repr

/-- Events counted by windows of 2^28 ticks (12 R404). -/
structure Win where
  no   : Nat := 0                        -- the window last counted in
  n    : Nat := 0                        -- events in it
  prev : Nat := 0                        -- events in the window before it
  deriving DecidableEq, Repr

/-! ### One core (04) -/

/-- The phase of a core's part of a program (R97, R125, R128). -/
inductive CorePhase where
  | setup       -- executing its setup section
  | ready       -- setup ended: waits for the first launch (or the step's launch)
  | run         -- issuing in a stroke
  | ending      -- at STROKE_END or HALT, waiting under R125
  | ended       -- stroke end reported; waits for the next launch
  | halted      -- HALT done; counts as having reached stroke end
  deriving DecidableEq, Repr

/-- A tile of an array, or of the VMP's rows (R71 to R73, R510). Elements and scales are raw codes. -/
structure Tile where
  loaded : Bool := false                 -- R510: false is the empty tile
  fmt    : BitVec 5 := 0
  kseg   : Nat := 0
  mask   : BitVec 8 := 0                 -- row mask
  elems  : List (List Nat) := []         -- 8 rows of element codes
  scales : List (List Nat) := []         -- 8 rows of scale bytes
  deriving DecidableEq, Repr

/-- An active loop (R114). -/
structure Loop where
  lc    : Nat := 0
  first : Nat := 0                       -- first word of the body
  last  : Nat := 0                       -- last word of the body
  left  : Nat := 0                       -- iterations still to run after this one
  deriving DecidableEq, Repr

/-- A DMA descriptor in its engine (R162), as captured at issue. -/
structure DmaOp where
  pc     : Nat := 0
  word   : DWord := 0
  desc   : List DWord := []
  bsrc   : DWord := 0
  bdst   : DWord := 0
  bcv    : DWord := 0                    -- counter base of BC
  pred   : DWord := 0
  ctx    : BitVec 128 := 0               -- random context of NRNG (R115)
  flag   : Nat := 0
  fv     : Bool := false
  moved  : Bool := false                 -- its transfer has run; false: waits or is stalled (R157)
  issued : Nat := 0                      -- tick of its issue (R158)
  stall  : Option Nat := none            -- the granule it is stalled on (R157, R158)
  deriving DecidableEq, Repr

/-- A SEND or MCAST in the XF queue waiting for its flag (R123). -/
structure SendOp where
  pc    : Nat := 0
  word  : DWord := 0
  addr  : DWord := 0
  gate  : Bool := true                   -- bit 0 of its PRED mask (R110)
  deriving DecidableEq, Repr

/-- A RECV issued in the stroke (R111, R121). -/
structure RecvOp where
  pc   : Nat := 0
  word : DWord := 0
  slot : Nat := 0
  addr : Nat := 0
  len  : Nat := 0                        -- 64-byte units
  flag : Nat := 0
  fv   : Bool := false
  deriving DecidableEq, Repr

/-- Data on its way to a core, or held in its mesh port (R111). -/
structure Delivery where
  dst  : Nat := 0
  slot : Nat := 0
  src  : Source := .core 0
  len  : Nat := 0
  data : List Byte := []
  wins : List (Nat × Nat) := []          -- 12 R389: packets to acknowledge once written: VC, bytes
  deriving DecidableEq, Repr

/-- One mapped core, by virtual index. -/
structure Core where
  phase   : CorePhase := .setup          -- 04 R97
  halting : Bool := false                -- 04 R128: waits at a HALT, not a STROKE_END
  faulted : Bool := false                -- 04 R130: it has faulted and issues no more; 0
  inSetup : Bool := true                 -- 04 R97: the setup section has not ended
  pc      : Nat := 0                     -- 04 table of state, 16 bits; 0 at program load
  codeEnd : Nat := 65536                 -- 04 R94, 17 bits; from the image
  store   : FMap DWord := []             -- 04 R94, 65,536 × 64 bits; zero where not loaded (R223)
  storeEcc : FMap (BitVec 72) := []      -- 04 R96: flips of store words
  base    : FMap DWord := []             -- 04 R93, B1–B15, 64 bits; 0 at program load
  mask    : FMap DWord := []             -- 04 R93, M1–M7, 64 bits; 0 at program load
  loops   : List Loop := []              -- 04 R114, L0–L3, 16 bits; innermost first
  ctx     : FMap (BitVec 128) := []      -- 04 R93, N0–N7, 128 bits; 0 at program load
  vregs   : FMap Word := []              -- 04 R93, V0–V31 × 64 lanes, key 64r + lane; 0 at program load
  flagSet : BitVec 64 := 0               -- 04 R121, F0–F63; 0 at each launch (R124)
  flagPend : BitVec 64 := 0              -- 04 R121: flags pending
  sticky  : Word := 0                    -- 02 R66, the flag word; 0 at each launch (R67)
  record  : DWord := 0                   -- 04 R127, the previous stroke's record; 0
  strokeIx : Nat := 0                    -- 04 R127, 32 bits; 0 before the first launch
  tiles   : FMap Tile := []              -- 03 R70, key 2a + (0 active, 1 shadow); empty (R510)
  acc     : FMap Word := []              -- 03 R70, key (8a + row) × 2,048 + column; 0
  vtiles  : FMap Tile := []              -- 03 R88, 0 active, 1 shadow; empty (R510)
  vacc    : FMap Word := []              -- 03 R88, key row × 256 + column; 0
  plate   : Mem := {}                    -- 05 R133, 32 MiB; zero at program load (R229)
  tags    : FMap Nat := []               -- 04 R118, 2,048 × 3 bits; NONE at program load
  staged  : FMap Nat := []               -- 04 R119: tag + 1 of staged frames; none
  dma     : FMap (List DmaOp) := []      -- 05 R162, engines 0 and 1, at most 16 each; empty
  xf      : List SendOp := []            -- 04 R123, at most 16; empty
  recvs   : List RecvOp := []            -- 04 R111: RECVs issued and not complete; empty
  port    : List Delivery := []          -- 04 R111: deliveries held; empty
  binds   : FMap (Option Source) := []   -- 07 R213: source of each slot in this stroke; none
  deriving DecidableEq, Repr

/-! ### Heaths (01, 04, 06, 07, 15) -/

/-- `HTH_STATUS.STATE` (R34). -/
inductive HeathState where
  | off | up | short | lost
  deriving DecidableEq, Repr

/-- A fault record (R129, R132). -/
structure FaultRec where
  code   : Nat := 0                      -- 8 bits
  opcode : Nat := 0                      -- 8 bits
  vx     : Nat := 0                      -- 6 bits
  vy     : Nat := 0                      -- 6 bits
  valid  : Bool := false
  instr  : Bool := false
  pc     : Nat := 0                      -- 16 bits
  stroke : Nat := 0                      -- 32 bits
  gtc    : Nat := 0                      -- 64 bits
  detail : DWord := 0
  deriving DecidableEq, Repr

/-- One heath. -/
structure Heath where
  fuse      : BitVec 27 := 0             -- 01 R34 HTH_CORE_FUSE; fuse value: DESIGN CHOICE 0 (log 5)
  runtime   : BitVec 27 := 0             -- 01 R34 HTH_CORE_RUNTIME; 0
  mirror    : BitVec 27 := 0             -- 01 R28, the stile's mirror in D49; 0
  selfFail  : BitVec 27 := 0             -- 01 R26, self-test failures; 0
  map       : BitVec 27 := 0             -- 01 R34 HTH_CORE_MAP.DISABLED; 0
  healthy   : Nat := 0                   -- 01 R34 HTH_CORE_MAP.HEALTHY, 5 bits; 0
  on        : Bool := false              -- 15 R487 PWR_DOMAIN bit h: its switches are closed; 0
  state     : HeathState := .off         -- 01 R34 HTH_STATUS.STATE; OFF
  lossCause : Nat := 0                   -- 01 R34 HTH_STATUS.LOSS_CAUSE, 8 bits; 0
  subst     : Bool := false              -- 01 R34 HTH_STATUS.HASHER_SUBST; 0
  fault     : FaultRec := {}             -- 04 R132; 0
  faultCount : Nat := 0                  -- 04 R132 HTH_FAULT_COUNT, 16 bits saturating; 0
  ce        : Nat := 0                   -- 05 R171 HTH_PLATE_ECC.CE, 16 bits saturating; 0
  spareRows : Nat := 0                   -- 05 R171 HTH_PLATE_ECC.SPARE_ROWS, 12 bits; 0
  droop     : Nat := 0                   -- 06 R208 HTH_DROOP.COUNT, 16 bits saturating; 0
  declared  : Nat := 0                   -- 07 R234 HTH_TOKENS.DECLARED, 9 bits; 0
  profile   : Nat := 0                   -- 07 R234 HTH_TOKENS.PROFILE, 8 bits; 0
  temp      : Nat := 0                   -- 15 R487 HTH_THERMAL.TEMP, 10 bits; 0
  therm     : Nat := 0                   -- 15 R479 HTH_THERMAL.THERM_LEVEL, 5 bits; 0
  thermAt   : Nat := 0                   -- 15 R479: tick of the last change of level; 0
  vid       : Nat := 0                   -- 15 R475 HTH_AVS.VID, 8 bits; 0
  current   : Nat := 0                   -- 15 R487 HTH_AVS.CURRENT, 12 bits; 0
  avsFault  : Bool := false              -- 15 R477 HTH_AVS.AVS_FAULT; 0
  railVid   : Nat := 0                   -- 15 R475: VID that the core rail holds, in the stile: 0 before the first (log 19)
  sramVid   : Nat := 0                   -- 15 R475: VID that the SRAM rail holds, in the stile: 0 before the first (log 19)
  avsHeld   : Bool := false              -- 15 R477: the level is held at 4 or higher until cold reset; 0
  lossLatch : Nat := 0                   -- 01 R31: cause of a loss, until cold reset; 0 none
  droops    : List Nat := []             -- 15 R476: ticks of the last droops counted since the VID was raised, at most 65, newest first; none
  lowerAt   : Nat := 0                   -- 15 R476: tick of the last lowering; 0
  delay     : Nat := 0                   -- 06 R175: release delay D of its crossings, in ticks; 0
  spread    : Bool := false              -- 06 R173: its PLL locked with spread; 0
  frozen    : Bool := false              -- 06 R204: issue is frozen; 0
  ceWin     : Win := {}                  -- 12 R404: corrected plate words by window; 0
  deriving DecidableEq, Repr

/-- The die and its identity (01, 16). -/
structure Die where
  fusedGrade  : Nat := 1                 -- 01 R34 IDC_GRADE.FUSED_GRADE, 4 bits; fuse: DESIGN CHOICE 1 (log 5)
  effGrade    : Nat := 0xF               -- 01 R34 IDC_GRADE.EFFECTIVE_GRADE, 4 bits; 0xF
  minHealthy  : Nat := 0                 -- 01 R34 IDC_GRADE.MIN_HEALTHY, 5 bits; 0
  downbinLeft : Nat := 1                 -- 01 R34 IDC_GRADE.DOWNBIN_LEFT, 1 bit; fuse: DESIGN CHOICE 1 (log 5)
  lost        : BitVec 48 := 0           -- 01 R34 IDC_HEATH_LOST; 0
  spareHash   : FMap (Option Nat) := []  -- 01 R17: the heath each memory rim die's spare pipeline serves; none
  rimLost     : BitVec 12 := 0           -- 01 R33: lost rim dies, MR0–MR7 then LR0–LR3; 0
  d48         : Bool := false            -- 15 R471: D48 switched on and not lost; 0
  d49         : Bool := true             -- 15 R469: D49 powered; PWR_DOMAIN_HI resets to 0x2_0000
  deriving DecidableEq, Repr

/-! ### Device memory (05) -/

/-- One region entry (R139, R171). -/
structure Region where
  valid   : Bool := false                -- 1 bit; 0
  kind    : Nat := 0                     -- 3 bits; 0
  wp      : Bool := false                -- 1 bit; 0
  slot    : Nat := 0                     -- 3 bits; 0
  base    : Nat := 0                     -- 27 bits, address [47:21]; 0
  limit   : Nat := 0                     -- 27 bits, address [47:21]; 0
  created : Bool := false                -- 07 R230: the loaded image created it; 0
  deriving DecidableEq, Repr

/-- One far segment (R160, R171). -/
structure FarSeg where
  valid : Bool := false                  -- 0
  write : Bool := false                  -- 0
  host  : Nat := 0                       -- host bus address [63:12]; 0
  deriving DecidableEq, Repr

/-- One physical DDR channel (R151). -/
structure Chan where
  score   : Nat := 0                     -- MEM_CH_SCORE.SCORE, 16 bits saturating; 0
  ue      : Nat := 0                     -- MEM_CH_SCORE.UE, 8 bits saturating; 0
  trained : Bool := false                -- 15 R471; 0
  failed  : Bool := false                -- 05 R156; 0
  deriving DecidableEq, Repr

/-- The spare of one memory rim die (R152, R171). -/
structure Spare where
  pos      : Nat := 0xF                  -- MEM_SPARE_DIE.POS, 4 bits; 0xF
  state    : Nat := 0                    -- MEM_SPARE_DIE.STATE: 0 IDLE, 1 COPYING, 2 REMAPPED, 3 EXHAUSTED; 0
  progress : Nat := 0                    -- 100 once remapped; MEM_SPARE_DIE.PROGRESS shows it or the copy's; 0
  since    : Nat := 0                    -- R152: tick at which its copy-out started; 0
  flips    : FMap (BitVec 72) := []      -- R150, R152: words of the spare in error, by word of its channel; none
  deriving DecidableEq, Repr

/-- One poison log entry (R159). -/
structure Poison where
  addr : Nat := 0                        -- 48 bits
  kind : Nat := 0                        -- 3 bits
  step : Nat := 0
  deriving DecidableEq, Repr

/-- The MEM block and the memories behind it. -/
structure Memory where
  scrubEn  : Bool := true                -- 05 R171 MEM_CTRL.SCRUB_EN; 1
  spareEn  : Bool := true                -- 05 R171 MEM_CTRL.SPARE_EN; 1
  thresh   : Nat := 0x200                -- 05 R171 MEM_CTRL.SCORE_THRESH, 16 bits; 0x0200
  regions  : FMap Region := []           -- 05 R139, entries 0 to 62 (entry 63 is fixed, R140); all 0
  far      : FMap FarSeg := []           -- 05 R160, 4,096 segments; all 0
  chans    : FMap Chan := []             -- 05 R151, physical channels 0 to 79; all 0
  spares   : FMap Spare := []            -- 05 R171, dies 0 to 7; POS 0xF
  poison   : List Poison := []           -- 05 R159, at most 64; empty
  overflow : Bool := false               -- 05 R171 MEM_POISON_HI.OVERFLOW; 0
  ddr      : Mem := {}                   -- 05 R138, by device address; zeroed at cold reset (R471)
  zeroed   : Bool := false               -- 15 R471: every channel written as zero since cold reset; 0
  repaired : List Nat := []              -- 05 R158: granules repaired, newest first; empty
  halvedAt : Nat := 0                    -- 05 R151: tick of the last halving; 0
  ceWin    : Win := {}                   -- 12 R404: corrected DDR words by window; 0
  deriving DecidableEq, Repr

/-! ### Ticks, strokes, holds (06) -/

/-- A recorded stop (R204, R208). -/
structure StopRec where
  valid  : Bool := false
  code   : Nat := 0                      -- 8 bits
  cause  : Nat := 0                      -- 4 bits
  isLocal : Bool := false
  stroke : Nat := 0                      -- 32 bits
  origin : Nat := 0                      -- 24 bits
  gtc    : Nat := 0                      -- 64 bits
  deriving DecidableEq, Repr

/-- `TCK_SYNC_STATUS.STATE` (R182). -/
inductive SyncState where
  | unsync | acquiring | locked | holdover
  deriving DecidableEq, Repr

/-- The TCK block. -/
structure Tick where
  gtc       : Nat := 0                   -- 06 R177, 64 bits; 0 at cold reset
  gtcHi     : Nat := 0                   -- 06 R178, the latched high word, 32 bits; 0
  running   : Bool := false              -- 06 R177: the tick domain counts (D48 up); 0
  quant     : Nat := 0x10                -- 06 R208 TCK_CTRL.QUANT, 9 bits; 0x010
  limit     : Nat := 0xC                 -- 06 R208 TCK_CTRL.SYNC_LIMIT, 7 bits; 0x0C
  spread    : Bool := false              -- 06 R208 TCK_CTRL.SPREAD; STRAP[2]
  lock      : Bool := false              -- 06 R208 TCK_CTRL.LOCK; 0
  master    : Bool := false              -- 06 R208 TCK_SYNC_CFG.MASTER; 0
  uplink    : Nat := 0x7F                -- 06 R208 TCK_SYNC_CFG.UPLINK, 7 bits; 0x7F
  depth     : Nat := 0                   -- 06 R208 TCK_SYNC_CFG.DEPTH, 3 bits; 0
  sync      : SyncState := .unsync       -- 06 R208 TCK_SYNC_STATUS.STATE; UNSYNC
  missed    : Nat := 0                   -- 06 R208 TCK_SYNC_STATUS.MISSED, 8 bits saturating; 0
  good      : Nat := 0                   -- 06 R182: beacons in a row within the bound; 0
  stepped   : Bool := false              -- 06 R181: the one step to the received value is done; 0
  lastBeacon : Nat := 0                  -- 06 R182: GTC of the last beacon received; 0
  slew      : Int := 0                   -- 06 R181: correction still to be slewed out, in ticks; 0
  sentAt    : Nat := 0                   -- 11 R363: GTC of the last BEACON sent; 0
  runQuant  : Nat := 0                   -- 06 R208 TCK_RUN.QUANT, 9 bits; 0
  runLimit  : Nat := 0                   -- 06 R208 TCK_RUN.SYNC_LIMIT, 7 bits; 0
  launched  : Bool := false              -- 06 R208 TCK_RUN.RUNNING; 0
  alone     : Bool := false              -- 06 R208 TCK_RUN.STANDALONE; 0
  lead      : Nat := 0                   -- 06 R208 TCK_HOLD_LEAD.LEAD, 13 bits; 0
  path      : Nat := 0                   -- 06 R208 TCK_HOLD_LEAD.PATH, 13 bits; 0
  stroke    : Nat := 0                   -- 06 R208 TCK_STROKE, 32 bits; 0
  launch    : Nat := 0                   -- 06 R208 TCK_LAUNCH, 64 bits; 0
  budget    : Nat := 0                   -- 06 R208 TCK_BUDGET, 32 bits; 0
  round     : Nat := 0                   -- 06 R208 TCK_ROUND.ROUND, 8 bits; 0
  sent      : Nat := 0                   -- 06 R208 TCK_ROUND.SENT, 8 bits; 0
  holdStrokes : Nat := 0                 -- 06 R208 TCK_HOLD_STROKES, 32 bits saturating; 0
  stretch   : Nat := 0                   -- 06 R208 TCK_STRETCH, 64 bits; 0
  stop      : StopRec := {}              -- 06 R208 TCK_STOP and following; 0
  margin    : Int := 0                   -- 06 R208 TCK_LAST_MARGIN, signed 32 bits saturating; 0
  xingLate  : Nat := 0                   -- 06 R208 TCK_XING_LATE, 16 bits saturating; 0
  stale     : Nat := 0                   -- 06 R208 TCK_STALE, 16 bits saturating; 0
  check     : Nat := 0                   -- 06 R199: the decision tick r checked next; 0
  fixed     : Option Nat := none         -- 06 R199: round[k], once fixed; none
  rounds    : List (Nat × Nat) := []     -- 06 R203: strokes whose round is fixed, with it, newest first; empty
  ended     : Bool := false              -- 06 R189: the device has reached stroke end for the stroke; 0
  rimBusy   : Bool := false              -- 06 R189: boundary work of the stroke is still due; 0
  stopDue   : Bool := false              -- 12 R397: the stroke's stop point came with an abort or a fence waiting; 0
  commits   : List (Nat × Nat) := []     -- 06 R190: launched strokes not committed, with L(k+1) once known; empty
  deriving DecidableEq, Repr

/-! ### The loaded program (07, 08 R242) -/

/-- A stroke table entry (R224). -/
structure StrokeEnt where
  budget     : Nat := 0
  slack      : Nat := 0
  rpt        : Nat := 0                  -- REPEAT
  profile    : Nat := 0
  checkpoint : Bool := false
  commit     : Bool := false
  deriving DecidableEq, Repr

/-- A route entry (R225). -/
structure Route where
  device : Nat := 0
  vx     : Nat := 0
  vy     : Nat := 0
  via    : Nat := 0
  vc     : Nat := 0
  deriving DecidableEq, Repr

/-- A shape record of the step table (R242). -/
structure Shape where
  d       : Nat := 0
  p       : Nat := 0
  a       : Nat := 0
  first   : Nat := 0
  entries : Nat := 0
  entry   : Nat := 0
  ticks   : Nat := 0
  scrub   : Nat := 0
  deriving DecidableEq, Repr

/-- The step table (R242). -/
structure StepTable where
  chunk      : Nat := 0
  attr       : Nat := 0
  contextMax : Nat := 0
  kvBytes    : Nat := 0
  result     : Nat := 0
  scores     : Nat := 0
  stride     : Nat := 0
  shapes     : List Shape := []
  deriving DecidableEq, Repr

/-- Where a program stands (R427, R191, R207). -/
inductive ProgPhase where
  | none       -- none was ever loaded, or the load was refused
  | accepted   -- LAUNCH_PROGRAM accepted; IMAGE_LOAD is due
  | loaded     -- loaded; the first launch is not agreed
  | due        -- L1 is agreed
  | running
  | done       -- completed or stopped; created regions remain (R230)
  deriving DecidableEq, Repr

/-- Who is answered by a program's completions: the LAUNCH_PROGRAM descriptor's function, rings, TAG. -/
structure Asker where
  fn    : Nat := 0
  gen   : Nat := 0
  sring : Nat := 0
  cring : Nat := 0
  tag   : DWord := 0
  op    : Nat := 0
  deriving DecidableEq, Repr

/-- The launch argument block (R426). -/
structure LaunchArgs where
  restart    : Bool := false
  inAddr     : Nat := 0
  inBytes    : Nat := 0
  outAddr    : Nat := 0
  outBytes   : Nat := 0
  notBefore  : Nat := 0
  launchWait : Nat := 0xFFFFFFFF
  restartAt  : Nat := 0
  head       : Digest := 0
  deriving DecidableEq, Repr

/-- The program: the image's content that the device keeps, and how far the launch has come. -/
structure Prog where
  phase    : ProgPhase := .none          -- 13 R427; none
  asker    : Asker := {}                 -- 13 R429
  args     : LaunchArgs := {}            -- 13 R426
  image    : List Byte := []             -- 07 R221: the submitted bytes until the load
  imgBytes : Nat := 0                    -- 13 R421 IMAGE_BYTES, 48 bits
  imgRead  : ReadStatus := .ok           -- 13 R442: how the image read ended
  seed     : DWord := 0                  -- 10 R314
  loadedAt : Nat := 0                    -- 13 R427: tick at which the load completed
  grid     : Nat := 0                    -- 07 R221 GRID
  step     : Bool := false               -- 07 R221 STEP
  explain  : Bool := false               -- 07 R221 EXPLAIN
  devices  : Nat := 0                    -- 07 R221 DEVICES
  cores    : Nat := 0                    -- 07 R221 CORES
  digest   : Digest := 0                 -- 07 R222; 0 when none is loaded
  strokes  : List StrokeEnt := []        -- 07 R224
  profiles : List (List Byte) := []      -- 07 R215
  routes   : List Route := []            -- 07 R225
  groups   : List (BitVec 1280) := []    -- 07 R226
  binds    : List Region := []           -- 07 R227: WEIGHT and ADAPTER regions bound
  kv       : Option Region := none       -- 08 R255: the image's first KV region
  table    : StepTable := {}             -- 08 R242
  epoch    : Nat := 0                    -- 06 R191, 16 bits; 0
  l1       : Nat := 0                    -- 06 R191
  entry    : Nat := 0                    -- 07 R224: current stroke table entry
  rep      : Nat := 0                    -- 07 R224: repetitions of it already started
  committed : Nat := 0                   -- 06 R190: last committed stroke
  ckpt     : Nat := 0                    -- 12 R405: last committed stroke with CHECKPOINT
  acks     : List (Nat × Nat) := []      -- 06 R191: members that answered, with the status
  record   : Option LaunchRec := none    -- 06 R191: the launch record held
  abort    : Option Asker := none        -- 12 R397: an abort waits for its stop point
  fencing  : Bool := false               -- 12 R400: FENCE_DEVICE waits for the stop point
  fencePorts : BitVec 36 := 0            -- 12 R399: FENCE_PORTS waits for the stop point
  fenceElec : BitVec 36 := 0             -- 12 R399: those of them that are to power their lanes down
  inRoot   : Digest := 0                 -- 10 R321
  window   : FMap Nat := []              -- 07 R211: scheduled bytes this stroke, key destination device
  setupFault : Bool := false             -- 06 R511: a setup section faulted before the launch record came; 0
  lastDigest : Digest := 0               -- 13 R427: digest of the stopped job's image
  deriving DecidableEq, Repr

/-! ### The serving engine (08) -/

/-- A request's state (table before R239). -/
inductive ReqState where
  | free | intake | queued | prefill | decode | attrib | held | ending
  deriving DecidableEq, Repr

/-- A switch entry of a submission (R331, R422). -/
structure Switch where
  count  : Nat := 0
  policy : Nat := 0
  slot   : Nat := 0
  deriving DecidableEq, Repr

/-- A request table entry (R239), with the engine's private part. -/
structure Req where
  state     : ReqState := .free          -- STATE, 4 bits
  fn        : Nat := 0                   -- FUNCTION, 8 bits
  gen       : Nat := 0                   -- 13 R438
  sring     : Nat := 0
  cring     : Nat := 0                   -- CRING, 6 bits
  tenant    : Nat := 0                   -- TENANT, 12 bits
  slot      : Nat := 0                   -- MODEL_SLOT, 3 bits
  adapter   : Option Nat := none         -- ADAPTER, ADAPTER_VALID
  explain   : Bool := false              -- EXPLAIN
  expire    : Bool := false              -- LATE_POLICY: true EXPIRE
  late      : Bool := false              -- LATE
  reprefill : Bool := false              -- REPREFILL
  tag       : DWord := 0                 -- TAG
  seed      : DWord := 0                 -- SEED
  adapterVer : Nat := 0                  -- ADAPTER_VERSION
  epoch     : Nat := 0                   -- WEIGHT_EPOCH, 16 bits
  prompt    : List Word := []            -- PROMPT_LEN tokens of the token store (R238)
  output    : List Word := []            -- COMMITTED output tokens of the token store (R238)
  maxNew    : Nat := 0                   -- MAX_NEW
  prefilled : Nat := 0                   -- PREFILLED
  hit       : Nat := 0                   -- PREFIX_HIT
  reserved  : Nat := 0                   -- RESERVED_PAGES
  pages     : List Nat := []             -- its page table (R255)
  store     : Nat := 0                   -- STORE; the page table stands at its start
  storeLen  : Nat := 0                   -- token store blocks held
  arrival   : Nat := 0
  firstTok  : Nat := 0
  lastTok   : Nat := 0
  deadline  : Nat := 0
  ttft      : Nat := 0                   -- TTFT_TARGET
  tbt       : Nat := 0                   -- TBT_TARGET
  tbtMisses : Nat := 0                   -- 16 bits saturating
  ttftMissed : Bool := false
  firstStep : Nat := 0
  lastStep  : Nat := 0
  stops     : List Word := []            -- STOP_TOKENS
  promptDig : Digest := 0                -- PROMPT_DIGEST
  outState  : Digest := 0                -- OUTPUT_STATE
  swapStep  : Nat := 0                   -- SWAP_STEP
  swapCount : Nat := 0                   -- SWAP_COUNT
  swaps     : List DWord := []           -- 10 R322: SWAP words
  switches  : List Switch := []          -- 10 R331
  outputs   : List Nat := []             -- 08 R271: named output indices
  scoresAt  : Nat := 0                   -- 08 R272: host address of the scores
  part      : Nat := 0                   -- 08 R271: attribution parts committed
  scores    : List (List Byte) := []     -- 08 R272: scores of committed parts
  resume    : ReqState := .free          -- 09 R292: the state it returns to from HELD
  status    : Nat := 0                   -- 08 R275: terminal status decided
  root      : Digest := 0                -- 10 R319: weight root at its first step
  slotAt    : Nat := 0                   -- 10 R319: model slot at its first step
  noProof   : Bool := false              -- 08 R275: ended by a disable; no REQUEST_DONE
  deriving DecidableEq, Repr

/-- A tenant table entry (table before R264). -/
structure Tenant where
  valid    : Bool := false
  reject   : Bool := false               -- POLICY: true REJECT
  fn       : Nat := 0
  cost     : Nat := 0
  rate     : Nat := 0
  level    : Nat := 0
  burst    : Nat := 0
  refilled : Nat := 0
  ttftMisses : Nat := 0
  tbtMisses : Nat := 0
  served   : Nat := 0
  rejected : Nat := 0
  deriving DecidableEq, Repr

/-- A slot bound in a step (R250, R269). -/
structure Bound where
  req  : Nat := 0
  kind : Nat := 0                        -- 0 decode, 1 chunk, 2 attribution part
  slot : Nat := 0                        -- slot index within its kind
  pos  : Nat := 0                        -- POSITION, START or PART
  len  : Nat := 0                        -- LEN of a chunk
  last : Bool := false                   -- chunk: ends the positions to compute
  lead : Option PairRec := none          -- R333: the slot's record as the leading partner sent it
  deriving DecidableEq, Repr

/-- A prefix index entry: HASH (R261) by chain hash, TREE (R262) by its whole token path. -/
structure PfxEntry where
  key     : BitVec 128 := 0              -- HASH: h
  path    : List Word := []              -- TREE: tokens from the root to the end of the block
  tree    : Digest × Digest := (0, 0)    -- TREE: weight_root and adapter_digest, the key of the root
  at_     : Nat := 0                     -- TREE: device address of the node in the engine area (R262)
  way     : Nat := 0                     -- HASH: way
  page    : Nat := 0
  lastUse : Nat := 0
  deriving DecidableEq, Repr

/-- The books of the engine that a discarded boundary leaves as they were (R248). -/
structure Books where
  reqs    : FMap Req := []               -- 08 R235, 65,536 entries; all FREE
  tenants : FMap Tenant := []            -- 08 R235, 4,096 entries; all 0
  freeCut : Nat := 0                     -- 08 R257: pages 0 to freeCut − 1 ...
  taken   : List Nat := []               -- ... less these are free
  fallow  : List Nat := []               -- 08 R257: freed pages awaiting zeroing, ascending; empty
  refs    : FMap Nat := []               -- 08 R257: page reference counts; 0
  pfx     : List PfxEntry := []          -- 08 R261, R262; empty
  bound   : List Bound := []             -- 08 R269: slots of the next or running step; empty
  variant : Nat := 0                     -- 08 R245: variant of that step
  barrier : Bool := false                -- 08 R277 SRV_STATUS.BARRIER; 0
  deriving DecidableEq, Repr

/-- A budget change or another descriptor that a boundary settles (R264, R276, R302). -/
structure Later where
  who  : Asker := {}
  kind : Nat := 0                        -- 2 CANCEL, 6 RETIRE_ADAPTER, 7 SET_BUDGET
  idx  : Nat := 0                        -- request, adapter slot or tenant
  tag  : DWord := 0                      -- TARGET_TAG
  ten  : Tenant := {}
  status : Nat := 0                      -- decided status
  deriving DecidableEq, Repr

/-- `SRV_SLOT_STATE.STATE` (R279). -/
inductive SlotState where
  | empty | loading | resident | swapping | failed | zeroing
  deriving DecidableEq, Repr

/-- A model slot (R279, R309). -/
structure Slot where
  state    : SlotState := .empty         -- 3 bits; EMPTY
  split    : Nat := 0                    -- SPLIT, 2 bits; 0
  mode     : Nat := 0                    -- MODE, 1 bit; 0
  progress : Nat := 0                    -- PROGRESS, 8 bits; 0
  epoch    : Nat := 0                    -- EPOCH, 16 bits; 0
  near     : Nat := 0                    -- NEAR_BYTES
  farBytes : Nat := 0                    -- FAR_BYTES
  farAddr  : Nat := 0                    -- FAR_ADDR (R303)
  base     : Nat := 0                    -- BASE of the near region
  change   : Nat := 0                    -- SRV_SLOT_CHANGE: step k of the last swap; 0
  root     : Digest := 0                 -- SRV_SLOT_ROOT; 0
  deriving DecidableEq, Repr

/-- What a boundary decided for one bound or ended request of step s (R247, R273). -/
structure Outcome where
  req    : Nat := 0
  kind   : Nat := 3                      -- journal KIND; 4 for an end without a slot
  token  : Option Word := none           -- committed token
  idx    : Nat := 0                      -- its output index, from 1
  pos    : Nat := 0                      -- the slot's position; for KIND 3 the TAG
  flags  : Nat := 0                      -- FLAGS of its TOKENS, set at the commit
  done   : Option Nat := none            -- terminal status decided
  silent : Bool := false                 -- nothing but the journal says it
  gone   : Bool := false                 -- function disabled: the entry returns to FREE at the commit
  deriving DecidableEq, Repr

/-- The decisions of a boundary, until its step commits and is journaled (R248, R273). -/
structure Decision where
  step    : Nat := 0
  stroke  : Nat := 0                     -- the step's commit stroke (R246)
  variant : Nat := 0
  outs    : List Outcome := []
  later   : List Later := []
  lived   : List Nat := []               -- adapter slots that went LIVE (R299)
  retired : List Nat := []               -- adapter slots that went RETIRING
  slotWas : Option (Nat × Slot) := none  -- the model slot before it raised or lowered the barrier
  proofs  : List Nat := []               -- requests whose proof was formed, once committed
  commit  : Nat := 0                     -- GTC of the commit tick, once committed
  deriving DecidableEq, Repr

/-- The SRV block's engine part. -/
structure Srv where
  enable   : Bool := false               -- 08 R277 SRV_CTRL.ENABLE; 0
  pageTok  : Nat := 2                    -- 08 R277 SRV_CTRL.PAGE_TOKENS, 3 bits; 2
  pfxMode  : Nat := 0                    -- 08 R277 SRV_CTRL.PREFIX, 2 bits; 0
  depth    : Nat := 1                    -- 08 R277 SRV_CTRL.JOURNAL_DEPTH, 3 bits; 1
  lock     : Bool := false               -- 08 R277 SRV_CTRL.LOCK; 0
  cfgReject : Bool := false              -- 08 R277 SRV_STATUS.CFG_REJECT; 0
  step     : Nat := 0                    -- 08 R277 SRV_STEP, 64 bits: last committed step; 0
  areaBase : Nat := 0                    -- 08 R277 SRV_AREA_LO/HI, address [47:21]; 0
  areaSize : Nat := 0                    -- 08 R277 SRV_AREA_SIZE, 20 bits; 0
  jrnBase  : Nat := 0                    -- 08 R277 SRV_JOURNAL_LO/HI, address [63:12]; 0
  jrnSize  : Nat := 0                    -- 08 R277 SRV_JOURNAL_SIZE, 24 bits; 0
  jrnDone  : Nat := 0                    -- 08 R277 SRV_JOURNAL_DONE: last journaled step; 0
  jrnPos   : Nat := 0                    -- 08 R274: bytes written to the ring so far; 0
  hits     : Nat := 0                    -- 08 R277 SRV_PREFIX_HITS, 32 bits saturating; 0
  ttftMiss : Nat := 0                    -- 08 R277 SRV_MISSES.TTFT, 16 bits saturating; 0
  tbtMiss  : Nat := 0                    -- 08 R277 SRV_MISSES.TBT, 16 bits saturating; 0
  books    : Books := {}                 -- 08 R235
  saved    : Option Books := none        -- 08 R248: the books before the uncommitted boundary
  decision : Option Decision := none     -- 08 R248: decided and not committed
  journal  : List Decision := []         -- 08 R273: committed and not journaled, oldest first
  cancels  : List Later := []            -- 08 R247: cancels read since the last boundary
  budgets  : List Later := []            -- 08 R264: budget changes waiting for the boundary
  retires  : List Later := []            -- 09 R302: retirements waiting for the boundary
  curStep  : Nat := 0                    -- 08 R250: step index of the running step; 0
  stepAt   : Nat := 0                    -- 09 R293: launch tick of the running step; 0
  substs   : List Nat := []              -- 05 R159: substitution list of the uncommitted step; empty
  substFull : Bool := false              -- 05 R159: the list is marked full; 0
  stores   : List (Nat × Nat) := []      -- 08 R237: token store runs taken from the pool (address, bytes), ascending; empty
  dirty    : List Nat := []              -- 08 R257: token store blocks freed and not yet zeroed, by address, ascending; empty
  scrubLeft : Nat := 0                   -- 08 R257: bytes that the scrubber may still zero in the running step; 0
  reqFlips : FMap (BitVec 72) := []      -- 08 R235: words of the request table in error, by 32 × entry + word; none
  tenFlips : FMap (BitVec 72) := []      -- 08 R235: words of the tenant table in error, by 8 × entry + word; none
  cancelAll : Bool := false              -- 12 R398: after an abort, the open requests end once all is journaled; 0
  partial_ : List (Nat × Nat) := []      -- 08 R263: full blocks to enter at the commit: request, block
  deriving DecidableEq, Repr

/-! ### Weights and adapters (09) -/

/-- An adapter slot's state (R298). -/
inductive AdState where
  | free | loading | live | retiring | zeroing
  deriving DecidableEq, Repr

/-- An adapter slot (R298). -/
structure Adapter where
  state    : AdState := .free            -- FREE
  id       : Nat := 0                    -- ADAPTER_ID, 20 bits
  version  : Nat := 0                    -- VERSION, 32 bits
  slot     : Nat := 0                    -- model slot
  digest   : Digest := 0
  verified : Bool := false               -- verified; goes LIVE at the next boundary (R299)
  deriving DecidableEq, Repr

/-- An operation of the load path (R284). -/
structure LoadOp where
  who    : Asker := {}
  kind   : Nat := 0                      -- 1 LOAD_MODEL, 2 SWAP_MODEL, 3 LOAD_ADAPTER, 4 zeroing
  slot   : Nat := 0                      -- model slot
  ad     : Nat := 0                      -- adapter slot, once taken
  set    : Nat := 1                      -- load set size S
  split  : Nat := 0
  mode   : Nat := 0
  vc     : Nat := 2
  policy : Nat := 0
  near   : Nat := 0
  far    : Nat := 0
  base   : Nat := 0
  farAddr : Nat := 0
  host   : Nat := 0                      -- HOST_ADDR
  at_    : Nat := 0                      -- AT_STEP or WAIT_TICKS
  first  : Nat := 0                      -- FIRST_LEAF
  leaves : Nat := 0                      -- LEAVES
  id     : Nat := 0
  version : Nat := 0
  root   : Digest := 0
  answer : Bool := true                  -- false: a zeroing that no descriptor awaits
  deriving DecidableEq, Repr

/-- The load path and the swap (R284 to R295). -/
structure Load where
  cur      : Option LoadOp := none       -- 09 R309 SRV_LOAD.OP and SLOT; idle
  queue    : List LoadOp := []           -- 09 R309 SRV_LOAD.QUEUED; empty
  started  : Bool := false               -- 09 R287: READY from every member is held
  since    : Nat := 0                    -- 09 R287, R301: tick at which the current wait began
  readies  : List Nat := []              -- 09 R287: members whose READY is held
  bases    : FMap Nat := []              -- 09 R287: BASE of each member, as its last READY says
  peers    : FMap Nat := []              -- 09 R287: ... and of the members of the running load
  hashes   : FMap (Option Digest) := []  -- 09 R287: leaf hashes
  verdicts : List (Nat × Nat) := []      -- 09 R287: members' verdicts, with the status
  reported : List Nat := []              -- 09 R306: members whose leaf hashes are held
  sent     : List (Nat × Nat) := []      -- 09 R287: leaves sent on, with the link, newest first; empty
  own      : Option Nat := none          -- 09 R287: this member's own verdict
  matchedAt : Option Nat := none         -- 09 R293: tick at which the last verdict matched
  computed : Digest := 0                 -- 09 R287: the root computed
  waiting  : Bool := false               -- 09 R301: a LOAD_ADAPTER waits for a FREE slot
  swap     : Option LoadOp := none       -- 09 R290: the swap that is pending or running
  writing  : Bool := false               -- 09 R292: writing of the swap has started
  drained  : List (Nat × Nat) := []      -- 09 R291: members' DRAINED steps
  sentDrained : Bool := false            -- 09 R291
  fell     : Option Nat := none          -- 09 R293: the step k whose commit completes the swap; none
  adBase   : Nat := 0                    -- 09 R309 SRV_ADAPTER_BASE, address [47:21]; 0
  adUnits  : Nat := 0                    -- 09 R309 SRV_ADAPTER_CFG.UNITS, 16 bits; 0
  adCount  : Nat := 0                    -- 09 R309 SRV_ADAPTER_CFG.COUNT, 11 bits; 0
  adEnable : Bool := false               -- 09 R309 SRV_ADAPTER_CFG.ENABLE; 0
  slots    : FMap Slot := []             -- 09 R279, 8 slots; all EMPTY
  adapters : FMap Adapter := []          -- 09 R297, 1,024 slots; all FREE
  deriving DecidableEq, Repr

/-! ### Proofs (10) -/

/-- The non-constant fields of a proof (R319). -/
structure Proof where
  status   : Nat := 0
  grid     : Nat := 1
  explain  : Bool := false
  late     : Bool := false
  paired   : Bool := false
  batch    : Bool := false
  devices  : Nat := 1
  swapCount : Nat := 0
  tag      : DWord := 0
  seed     : DWord := 0
  first    : Nat := 0
  last     : Nat := 0
  slot     : Nat := 0
  adapter  : Bool := false
  device   : Nat := 0
  leaf     : Nat := 0
  tokens   : Nat := 0
  image    : Digest := 0
  root     : Digest := 0
  adDigest : Digest := 0
  prompt   : Digest := 0
  output   : Digest := 0
  swaps    : List DWord := []
  deriving DecidableEq, Repr

/-- A proof in the proof store that has not had its PROOF_READY (R323, R329). -/
structure Stored where
  q     : Nat := 0                       -- proof number since program load
  proof : Proof := {}
  req   : Nat := 0
  who   : Asker := {}
  placed : Bool := false                 -- written to the proof store
  inRing : Option Nat := none            -- entry of the host proof ring, once copied
  lost   : Bool := false                 -- both store copies read as uncorrectable (R157)
  ready : Bool := false                  -- PROOF_READY written, or none due (R512)
  deriving DecidableEq, Repr

/-- A signed record or chain record waiting for the host impression ring (R324, R326, R327). -/
structure RecOut where
  bytes  : List Byte := []
  sig    : Bool := false                 -- a signed record (4 entries) or a chain record (1 entry)
  step   : Nat := 0
  deriving DecidableEq, Repr

/-- A head due to be signed (R327, R328). -/
structure HeadDue where
  step    : Nat := 0
  head    : Digest := 0
  devices : Nat := 0                     -- DEVICES of the chain record with this HEAD
  deriving DecidableEq, Repr

/-- A PROGRAM_DONE that waits for its records (R429): the words decided, and the step whose signed record
it awaits. -/
structure DoneRec where
  unsigned : Bool := false               -- 14 R444, R467: its head has been skipped, and no signed record comes
  status  : Nat := 0
  strokes : Nat := 0
  code    : Nat := 0
  cause   : Nat := 0
  origin  : Nat := 0
  heath   : Nat := 0
  gtc     : Nat := 0
  step    : Nat := 0
  deriving DecidableEq, Repr

/-- The proof registers and the chain. -/
structure Proofs where
  signEvery : Nat := 7                   -- 10 R337 SRV_PROOF_CFG.SIGN_EVERY, 6 bits; 7
  pairGate  : Bool := false              -- 10 R337 SRV_PROOF_CFG.PAIR_GATE; 0
  base      : Nat := 0                   -- 10 R337 SRV_PROOF_LO/HI, address [47:12]; 0
  size      : Nat := 0                   -- 10 R337 SRV_PROOF_SIZE.PAGES, 24 bits; 0
  pBase     : Nat := 0                   -- 10 R337 SRV_PRING_LO/HI, address [63:12]; 0
  pSize     : Nat := 0                   -- 10 R337 SRV_PRING_SIZE, 24 bits; 0
  iBase     : Nat := 0                   -- 10 R337 SRV_IRING_LO/HI, address [63:12]; 0
  iSize     : Nat := 0                   -- 10 R337 SRV_IRING_SIZE, 24 bits; 0
  pHead     : Nat := 0                   -- 10 R337 SRV_PRING_HEAD, 32 bits; 0
  iHead     : Nat := 0                   -- 10 R337 SRV_IRING_HEAD, 32 bits; 0
  pDone     : Nat := 0                   -- 10 R324: entries written to the host proof ring; 0
  iDone     : Nat := 0                   -- 10 R324: entries written to the host impression ring; 0
  signed    : Nat := 0                   -- 10 R337 SRV_SIGNED, 64 bits; 0
  inRing    : Nat := 0                   -- 10 R329: last step whose signed record is in the ring; 0
  count     : Nat := 0                   -- 10 R323: proofs formed since program load; 0
  store     : List Stored := []          -- 10 R323: proofs not yet done with, oldest first; empty
  held      : List RecOut := []          -- 10 R324: the holding buffer, 4,096 entries; empty
  head      : Digest := 0                -- 10 R326: HEAD of the chain
  headDevs  : Nat := 0                   -- 10 R327: DEVICES of the chain record with that HEAD, the image's where there is none; 0
  due       : Option HeadDue := none     -- 10 R328: the head being signed or waiting
  pairState : Nat := 0                   -- 10 R337 SRV_PAIR.STATE: 0 UNPAIRED, 1 PAIRED, 2 LOST, 3 DIVERGED; 0
  divStep   : Nat := 0                   -- 10 R337 SRV_DIV_STEP, 64 bits; 0
  ownHeads  : List (Nat × Digest × Nat) := []  -- 10 R334: own heads not compared: step, head, tick; empty
  peerHeads : List (Nat × Digest) := []  -- 10 R334: partner's heads not compared; empty
  bindings  : List PairMsg := []         -- 10 R333: partner's bindings not used; empty
  bindSince : Option Nat := none         -- 10 R333: tick since which a binding is unmatched; none
  gated     : List Decision := []        -- 10 R334: completions withheld under PAIR_GATE; empty
  waitDone  : Option DoneRec := none     -- 13 R429: a PROGRAM_DONE that waits; none
  done      : Option DoneRec := none     -- 06 R205, R207: what a step program's PROGRAM_DONE said; none
  matched   : Nat := 0                   -- 10 R334: last step whose heads matched; 0
  deriving DecidableEq, Repr

/-! ### Vaesk links (11) -/

/-- `FAB_LINK_STATUS.STATE` (R343). -/
inductive LinkState where
  | off | training | discovery | quarantine | up | retrain | fenced | down
  deriving DecidableEq, Repr

/-- A flit kept for transmission or replay: VC, KIND, DISCARD, LINKMSG, words and data. -/
structure TxFlit where
  vc      : Nat := 0
  kind    : Nat := 4                     -- 1 FIRST, 2 MIDDLE, 3 LAST, 4 ONLY, 6 VOID
  discard : Bool := false
  linkmsg : Bool := false
  shared  : Bool := false
  words   : Nat := 0
  pkey    : Nat := 0
  data    : List Byte := []
  flow    : Nat := 0                     -- VC1: the transmit slot entry that it leaves by (R381); received: its slot
  isOwn   : Bool := false                -- belongs to a packet this device originated
  flips   : FMap (BitVec 72) := []       -- R342: how the words of the transmit buffer are in error, by word; none
  deriving DecidableEq, Repr

/-- What a replay was started by (R370). -/
inductive ReplayBy where
  | nak | timer | resume
  deriving DecidableEq, Repr

/-- Priority flits waiting at a port, at most one of each type (R362); HOLD, STOP and CANCEL are sent
twice, so each comes with the copies still to send. -/
structure PrioWait where
  stop   : Option (Prio × Nat) := none
  cancel : Option (Prio × Nat) := none
  hold   : Option (Prio × Nat) := none
  beacon : Option Prio := none
  deriving DecidableEq, Repr

/-- One link. -/
structure Link where
  enable   : Bool := false               -- 11 R377 FAB_LINK_CTRL.ENABLE; 0
  fence    : Bool := false               -- 11 R377 FAB_LINK_CTRL.FENCE; 0
  elec     : Bool := false               -- 11 R377 FAB_LINK_CTRL.ELEC; 0
  nReplay  : Nat := 4                    -- 11 R377 FAB_LINK_CTRL.NREPLAY, 4 bits; 4
  mRetrain : Nat := 2                    -- 11 R377 FAB_LINK_CTRL.MRETRAIN, 4 bits; 2
  vcMask   : BitVec 8 := 0x07            -- 11 R377 FAB_LINK_CTRL.VC_MASK; 0x07
  state    : LinkState := .off           -- 11 R377 FAB_LINK_STATUS.STATE; OFF
  lanesOff : Bool := false               -- 11 R377 FAB_LINK_STATUS.LANES_OFF; 0
  reason   : Nat := 0                    -- 11 R377 FAB_LINK_STATUS.REASON, 4 bits; 0
  peerReason : Nat := 0                  -- 11 R377 FAB_LINK_STATUS.PEER_REASON, 4 bits; 0
  proto    : Nat := 0                    -- 11 R377 FAB_LINK_STATUS.PROTO, 4 bits; 0
  vcOper   : BitVec 8 := 0               -- 11 R377 FAB_LINK_STATUS.VC_OPER; 0
  plan     : LinkEntry := {}             -- 11 R377 FAB_LINK_PLAN, with HEDGE and PAIR of the plan; 0
  peer     : Option Disc := none         -- 11 R377 FAB_LINK_PEER*, the last RECORD received; none
  hasRec   : Bool := false               -- 11 R348: the peer's RECORD of this discovery is held
  verdict  : Option (Nat × Nat) := none  -- 11 R353: own verdict and reason
  peerVerdict : Option (Nat × Nat) := none  -- 11 R353: the peer's
  since    : Nat := 0                    -- 11 R343: tick at which the state was entered
  delay    : Nat := 0                    -- 11 R377 FAB_LINK_DELAY.DELAY, 16 bits; 0
  timer    : Nat := 0                    -- 11 R377 FAB_LINK_DELAY.TIMER, 16 bits; 0
  failed   : BitVec 9 := 0               -- 11 R377 FAB_LINK_LANES.FAILED; 0
  spareFor : Nat := 0xF                  -- 11 R377 FAB_LINK_LANES.SPARE_FOR, 4 bits; 0xF
  bad      : Nat := 0                    -- 11 R377 FAB_LINK_CRC.BAD, 16 bits saturating; 0
  naks     : Nat := 0                    -- 11 R377 FAB_LINK_CRC.NAKS, 16 bits saturating; 0
  resent   : Nat := 0                    -- 11 R377 FAB_LINK_REPLAY, 32 bits saturating; 0
  retrains : Nat := 0                    -- 11 R377 FAB_LINK_RETRAIN.TOTAL, 16 bits saturating; 0
  retrainAt : List Nat := []             -- 11 R372: ticks of retrains, newest first (WINDOW); empty
  fecCorr  : Nat := 0                    -- 11 R377 FAB_LINK_FEC.CORRECTED, 16 bits saturating; 0
  fecBad   : Nat := 0                    -- 11 R377 FAB_LINK_FEC.UNCORRECTABLE, 16 bits saturating; 0
  dup      : Nat := 0                    -- 11 R377 FAB_LINK_DROP.DUP, 16 bits saturating; 0
  vcDrop   : Nat := 0                    -- 11 R377 FAB_LINK_DROP.VC, 16 bits saturating; 0
  queue    : FMap (List TxFlit) := []    -- 11 R365: transmit queue of each VC; empty
  replay   : List (Nat × TxFlit × Nat) := []  -- 11 R370: SEQ, flit, times replayed; oldest first, at most 2,048; empty
  nextSeq  : Nat := 0                    -- 11 R369: next SEQ to send, 20 bits; 0
  expect   : Nat := 0                    -- 11 R369: expected SEQ, 20 bits; 0
  nak      : Bool := false               -- 11 R369: NAK is set; 0
  replaying : Option (Nat × ReplayBy) := none  -- 11 R370: next SEQ of the replay in progress; none
  nakFrom  : Option Nat := none          -- 11 R370: ACK value of the NAK-started replay; none
  timerAt  : Nat := 0                    -- 11 R370: tick at which the replay timer restarted; 0
  credits  : FMap Nat := []              -- 11 R367: dedicated credits of VC v (key v), shared (key 8); 0
  seen     : FMap Nat := []              -- 11 R367: last CRCOUNT seen, same keys, 12 bits; 0
  granted  : FMap Nat := []              -- 11 R366: cumulative credits granted, same keys, 12 bits; 0
  report   : Nat := 0                    -- 11 R366: the count the next trailer reports; 0
  rr       : Nat := 2                    -- 11 R360: next VC of the round robin; 2
  frame    : Nat := 0                    -- 11 R341: the frame being sent; 0
  slotNo   : Nat := 0                    -- 11 R341: next flit slot of the frame, 0 to 124; 0
  displaced : Nat := 0                   -- 11 R341: free slots of the frame taken by priority flits; 0
  msgs     : List TxFlit := []           -- 11 R348: link messages to send, oldest first; empty
  openVc1  : Bool := false               -- 11 R359: the packet at the head of VC1's queue has begun; 0
  planNow  : LinkEntry := {}             -- 11 R378: FAB_LINK_PLAN as the discovery took it; 0
  pool     : Nat := 0xC00                -- 11 R377 FAB_LINK_POOL.FREE, 12 bits; 0xC00
  rx       : FMap (List TxFlit) := []    -- 11 R365: accepted flits of each VC, oldest first; empty
  prio     : PrioWait := {}              -- 11 R362; none
  waits    : FMap Nat := []              -- 12 R393: tick + 1 since which a VC's flit waits for a credit; none
  before   : LinkState := .off           -- 11 R371: the state held before RETRAIN
  fenceDue : Bool := false               -- 11 R374: FENCE was written during RETRAIN
  wire     : Option Flit := none         -- the flit last transmitted
  resv     : FMap Nat := []              -- 11 R366: flits reserved: dedicated of VC v (key v), shared (key 8); 0
  owed     : FMap Nat := []              -- 11 R366: credits to withhold as buffers come free, same keys; 0
  fecWin   : Win := {}                   -- 12 R404: codewords corrected by window; 0
  replayWin : Win := {}                  -- 12 R404: replay episodes by window; 0
  retrainWin : Win := {}                 -- 12 R404: retrains by window; 0
  deriving DecidableEq, Repr

/-! ### Fabric and partitions (12) -/

/-- `FAB_PART.STATE` (R395). -/
inductive PartState where
  | unassigned | assigned | running | fenced | teardown
  deriving DecidableEq, Repr

/-- A requester's tag (R390). -/
structure Tag where
  busy   : Bool := false                 -- outstanding
  epoch  : Nat := 0                      -- tag epoch, 8 bits; 0
  since  : Nat := 0                      -- tick of issue
  first  : Nat := 0                      -- link of the first hop
  load   : Bool := false                 -- 09 R287: issued by the load path
  result : Option Nat := none            -- completion status once settled
  data   : List Byte := []
  deriving DecidableEq, Repr

/-- Per-link counters of a congestion interval (R393). -/
structure CongLink where
  sent   : FMap Nat := []                -- flits sent by VC
  stall  : FMap Nat := []                -- credit waits by length class
  resent : Nat := 0
  bad    : Nat := 0
  drops  : Nat := 0
  poolMin : Nat := 0xC00
  deriving DecidableEq, Repr

/-- The FAB block and the fabric's state on this device. -/
structure Fab where
  lock      : Bool := false              -- 12 R407 FAB_CTRL.LOCK; 0
  id        : Nat := 0xFFFFFF            -- 12 R407 FAB_DEVICE_ID, 24 bits; 0xFF_FFFF
  part      : PartState := .unassigned   -- 12 R407 FAB_PART.STATE; UNASSIGNED
  pkey      : Nat := 0                   -- 12 R407 FAB_PART.PKEY, 16 bits; 0
  size      : Nat := 0                   -- 12 R407 FAB_PART_SIZE, 24 bits; 0
  rank      : Nat := 0                   -- 12 R407 FAB_RANK, 24 bits; 0
  coord     : Nat := 0                   -- 12 R407 FAB_COORD, 24 bits; 0
  unsched   : Nat := 4                   -- 12 R407 FAB_WINDOW.UNSCHED, 7 bits; 4
  timeout   : Nat := 0x16                -- 12 R407 FAB_TIMEOUT.LOG2, 5 bits; 0x16
  collector : Nat := 0xFFFFFF            -- 12 R407 FAB_CONG_CFG.COLLECTOR, 24 bits; 0xFF_FFFF
  congEn    : Bool := true               -- 12 R407 FAB_CONG_CFG.ENABLE; 1
  ringBase  : Nat := 0                   -- 12 R407 FAB_CONG_RING_LO/HI, address [63:12]; 0
  ringSize  : Nat := 0                   -- 12 R407 FAB_CONG_RING_SIZE, 24 bits; 0
  ringPos   : Nat := 0                   -- 12 R393: maps written to the ring; 0
  foreign   : Nat := 0                   -- 12 R407 FAB_FOREIGN.PKEY, 16 bits saturating; 0
  badMgmt   : Nat := 0                   -- 12 R407 FAB_FOREIGN.MGMT, 16 bits saturating; 0
  lateResp  : Nat := 0                   -- 12 R407 FAB_DROP.LATE, 16 bits saturating; 0
  dropRoute : Nat := 0                   -- 12 R407 FAB_DROP.ROUTE, 16 bits saturating; 0
  score     : Nat := 0                   -- 12 R407 FAB_SCORE.SCORE, 16 bits saturating; 0
  thresh    : Nat := 0x100               -- 12 R407 FAB_SCORE.THRESH, 10 bits; 0x100
  suspect   : Bool := false              -- 12 R407 FAB_SCORE.SUSPECT; 0
  planDig   : Digest := 0                -- 12 R407 FAB_PLAN_DIGEST; 0
  vcResv    : Word := 0x11111111         -- 11 R377 FAB_VC_RESV; 0x1111_1111
  engFault  : BitVec 6 := 0              -- 11 R377 FAB_ENGINE_STATUS0–5.FAULT; 0
  common    : PlanCommon := {}           -- 12 R381, plan memory, common part; empty
  device    : PlanDevice := {}           -- 12 R381, plan memory, device part; empty
  plan      : Option (PlanCommon × PlanDevice) := none  -- 12 R382: the committed plan; none
  txNow     : FMap (BitVec 16) := []     -- 11 R376: transmit slot tables in the port engines, key 120 × link + slot; empty
  rxNow     : FMap (BitVec 16) := []     -- 11 R376: receive slot tables in the port engines, same keys; empty
  unfencing : Bool := false              -- 12 R400: the teardown began with UNFENCE; 0
  partKey   : Option Digest := none      -- 12 R394: the partition key; none
  pairKey   : Option Digest := none      -- 12 R394: the pair key; none
  tags      : FMap Tag := []             -- 12 R390, 4,096 tags; all free
  used      : FMap Nat := []             -- 12 R389: outstanding bytes, key destination × 8 + VC; 0
  hops      : FMap (BitVec 36) := []     -- 12 R389: first hops of the outstanding packets, same keys; none
  waiting   : List Packet := []          -- 12 R389: packets held by a full window; empty
  reqWait   : List (Packet × Bool) := [] -- 12 R390: requests that wait for a tag, with whether they are the load path's; empty
  ctr       : FMap Nat := []             -- 12 R385: packets injected, key destination × 8 + VC, 32 bits; 0
  coll      : FMap (List (Nat × List Byte)) := []  -- 12 R392: contributions by collective ID; empty
  collSat   : BitVec 4 := 0              -- 10 R318: SAT raised by each collectives engine since program load; 0
  frags     : FMap (List Byte) := []     -- 12 R384, R392: data of a message until LASTPKT, by source, core, slot and VC; empty
  fragWins  : FMap (List (Nat × Nat)) := []  -- 12 R389: its packets to acknowledge, same keys; empty
  cong      : FMap CongLink := []        -- 12 R393: counters of the interval; 0
  congHolds : Nat := 0                   -- 12 R393: holds sent in the interval; 0
  minMargin : Option Int := none         -- 12 R393: lowest margin in the interval; none
  congForeign : Nat := 0                 -- 12 R393: foreign drops in the interval; 0
  mapNo     : Nat := 0                   -- 12 R393: the last interval latched; 0
  mgmtOut   : List MgmtOut := []         -- 12 R394: management messages sent, newest first; empty
  mgmtSeq   : Nat := 0                   -- 12 R394: SEQ of the last management message sent; 0
  waitMgmt  : List (Nat × Nat) := []     -- 12 R394: requests whose RESPONSE waits: sender, session; empty
  abortFor  : Option Asker := none       -- 12 R397: an abort forwarded to the coordinator; none
  stopSeen  : List (Nat × Nat) := []     -- 12 R198: (stroke, round) of holds forwarded; empty
  deriving DecidableEq, Repr

/-! ### Host interface (13) -/

/-- One ring of a function: its context (R414) and how far it has come (R416, R428). Key r for submission
ring r, 64 + r for completion ring r, 128 for the event ring. -/
structure Ring where
  valid    : Bool := false
  base     : Nat := 0
  log2     : Nat := 0
  vector   : Nat := 0
  irq      : Bool := false
  coalCount : Nat := 0
  coalTicks : Nat := 0
  consumed : Nat := 0                    -- submission: CONSUMED; completion and event: CQ_HEAD or EVT_HEAD
  tail     : Nat := 0                    -- submission: SQ_TAIL as last read
  written  : Nat := 0                    -- completion and event: entries written
  unsig    : Nat := 0                    -- completions not signalled (R432)
  since    : Nat := 0                    -- tick of the first of them
  stopped  : Bool := false               -- R417
  shared   : Bool := false               -- R418: its doorbell line is held
  turn     : Nat := 0                    -- R420: descriptors read in this turn
  deriving DecidableEq, Repr

/-- A completion waiting for room (R430). -/
structure HeldComp where
  ring  : Nat := 0
  words : List DWord := []
  frees : Option Nat := none             -- 08 R275: a REQUEST_DONE after which this entry returns to FREE
  at_   : Nat := 0                       -- 08 R237: its entry of the function's holding queue
  deriving DecidableEq, Repr

/-- One function (R412, R436). -/
structure Fn where
  enable  : Bool := false                -- 13 R441 HIF_FN_CTRL.ENABLE; 0
  adapter : Bool := false                -- 13 R441 HIF_FN_CTRL.ADAPTER; 0 (PF0 reads 1)
  state   : Nat := 0                     -- 13 R441 HIF_FN_STATUS.STATE: 0 DISABLED, 1 ACTIVE, 2 RESET; 0
  fault   : Bool := false                -- 13 R441 HIF_FN_STATUS.FAULT; 0
  cause   : Nat := 0                     -- 13 R441 HIF_FN_STATUS.CAUSE, 4 bits; 0
  gen     : Nat := 0                     -- 13 R438, R441: the generation; HIF_FN_STATUS.GEN shows it modulo 256; 0
  ctx     : Nat := 0                     -- 13 R441 HIF_FN_CTX_LO/HI, address [63:6]; 0
  db      : Nat := 0                     -- 13 R441 HIF_FN_DB_LO/HI, address [63:12]; 0
  rings   : FMap Ring := []              -- 13 R414: the copy of the context table; empty
  held    : List HeldComp := []          -- 13 R430: completions waiting, oldest first; empty
  dropped : Nat := 0                     -- 13 R431: events dropped; 0
  pci     : FnPci := {}                  -- 13 R436: D3hot, Bus Master Enable, VF presence: DESIGN CHOICE (log 12)
  resetEv : Bool := false                -- 13 R431: FUNCTION_RESET is due at its next enable; 0
  deriving DecidableEq, Repr

/-- An MSI-X table entry (R441, R498). Key 4096 × function + vector. -/
structure Msix where
  addr   : DWord := 0
  data   : Word := 0
  masked : Bool := true                  -- 16 R498: each entry's Mask bit is set at reset
  pend   : Bool := false                 -- 13 R432: its pending bit; 0
  deriving DecidableEq, Repr

/-- The HIF block. -/
structure Hif where
  poll    : Nat := 0xC                   -- 13 R441 HIF_CTRL.POLL_LOG2, 5 bits; 0x0C
  lock    : Bool := false                -- 13 R441 HIF_CTRL.LOCK; 0
  link    : HostLink := { rate := 0, width := 0, flit256 := false, cache := false, mem := false }  -- 13 R441 HIF_LINK; down
  polled  : Nat := 0                     -- 13 R410: tick of the last doorbell poll; DESIGN CHOICE 0 (log 88)
  served  : Nat := 4095                  -- 13 R420: the pair 64 × function + ring of the last turn; DESIGN CHOICE 4,095 (log 88)
  turn    : Nat := 8                     -- 13 R420: descriptors read in that turn; DESIGN CHOICE 8 (log 88)
  fns     : FMap Fn := []                -- 13 R412, functions 0 to 63; all DISABLED
  msix    : FMap Msix := []              -- 13 R441; masked
  irqs    : List (Nat × Nat) := []       -- 13 R432: interrupts sent (function, vector), newest first; empty
  tracker : List Nat := []               -- 13 R434: tracked lines, newest first, at most 2^20; empty
  bisnp   : List (Nat × Bool) := []      -- 13 R434: back-invalidates issued (line, for a write), newest first; empty
  hdm     : Bool := false                -- 13 R433: the HDM decoder is committed; 0
  readOut : List Byte := []              -- 13 R434: what the last host read of the shared window returned; DESIGN CHOICE empty (log 8)
  readBad : Bool := false                -- 05 R159: ... and that it was poison; DESIGN CHOICE 0 (log 8)
  sharedWait : List (Bool × Nat × List Byte) := []  -- 14 R463: host accesses (write, address, bytes) that wait for the end of a zeroing of DDR; empty
  deriving DecidableEq, Repr

/-! ### Stile, fuses, guard (14) -/

/-- A guard operation (R465). -/
inductive GuardOp where
  | freeze | fenceAll | hostFlush | dump | heathReset | zeroizeKeys | zeroizePlates | zeroizeDdr | powerOff
  deriving DecidableEq, Repr

/-- The fuses and the LCF block. -/
structure Lcf where
  state     : Nat := 2                   -- 14 R468 LCF_STATE.STATE, 2 bits; fuse: DESIGN CHOICE 2 (log 5)
  left      : Nat := 1                   -- 14 R468 LCF_STATE.LEFT, 2 bits; fuse: DESIGN CHOICE 1 (log 5)
  cmd       : Nat := 0                   -- 14 R468 LCF_CMD.CMD, 4 bits; 0
  confirm   : Nat := 0                   -- 14 R468 LCF_CMD.CONFIRM, 11 bits; 0
  go        : Bool := false              -- 14 R468 LCF_CMD.GO; 0
  value     : Nat := 0                   -- 14 R468 LCF_CMD_ARG.VALUE, 11 bits; 0
  busy      : Bool := false              -- 14 R468 LCF_CMD_STATUS.BUSY; 0
  run       : Nat × Nat := (0, 0)        -- 14 R459: the running command and its VALUE; none
  status    : Nat := 0                   -- 14 R468 LCF_CMD_STATUS.STATUS, 8 bits; 0
  rollback  : Nat := 0                   -- 14 R468 LCF_ROLLBACK.COUNT, 11 bits; fuse: DESIGN CHOICE 0 (log 5)
  rollLeft  : Nat := 1024                -- 14 R468 LCF_ROLLBACK.LEFT, 11 bits; fuse: DESIGN CHOICE 1024 (log 5)
  revoked   : BitVec 16 := 0             -- 14 R468 LCF_REVOKE.REVOKED; fuse: DESIGN CHOICE 0 (log 5)
  revLeft   : Nat := 16                  -- 14 R468 LCF_REVOKE.LEFT, 5 bits; fuse: DESIGN CHOICE 16 (log 5)
  commits   : Nat := 32                  -- 14 R468 LCF_SPARE_COMMITS.LEFT, 6 bits; fuse: DESIGN CHOICE 32 (log 5)
  eligible  : Bool := false              -- 14 R468 LCF_TICK_ELIG.ELIGIBLE; clear (R461)
  eligLeft  : Nat := 2                   -- 14 R468 LCF_TICK_ELIG.LEFT, 2 bits; fuse: DESIGN CHOICE 2 (log 5)
  lockFuse  : Bool := true               -- 14 R468 LCF_DEBUG.LOCK_FUSE; fuse: DESIGN CHOICE 1 (log 5)
  lockLeft  : Nat := 0                   -- 14 R468 LCF_DEBUG.LEFT, 1 bit; fuse: DESIGN CHOICE 0 (log 5)
  unlocked  : Bool := false              -- 14 R468 LCF_DEBUG.UNLOCKED; 0
  scope     : BitVec 3 := 0              -- 14 R468 LCF_DEBUG.SCOPE; 0
  until_    : Nat := 0                   -- 14 R457: tick at which the unlock ends; 0
  maps      : FMap (BitVec 27) := []     -- 01 R29: the fused spare maps, by heath; fuse: DESIGN CHOICE 0 (log 5)
  wrapped   : Bool := true               -- 14 R449: the wrapped identity key is in the fuses: DESIGN CHOICE (log 5)
  deriving DecidableEq, Repr

/-- An SPDM session (14 R451, R453). -/
structure Session where
  id      : Nat := 0
  ems     : Digest := 0                  -- 14 R453: its export master secret
  updates : Nat := 0                     -- 14 R451: KEY_UPDATEs of its traffic keys
  period  : Nat := 0                     -- 14 R451: its heartbeat period in ticks; 0: none
  since   : Nat := 0                     -- 14 R451: tick of the last request in it
  deriving DecidableEq, Repr

/-- The STL block, boot, identity, sessions. -/
structure Stl where
  wdtEn    : Bool := true                -- 14 R468 STL_CTRL.WDT_EN; 1
  lock     : Bool := false               -- 14 R468 STL_CTRL.LOCK; 0
  state    : Nat := 0                    -- 14 R468 STL_STATUS.STATE: 0 BOOTING, 1 RUNNING, 2 RESTARTING, 3 HALTED; 0
  source   : Nat := 0                    -- 14 R468 STL_STATUS.FW_SOURCE, 2 bits; 0
  identity : Bool := false               -- 14 R449: the unwrapped identity key is present; 0
  wdtResets : Nat := 0                   -- 14 R468 STL_STATUS.WDT_RESETS, 8 bits saturating; 0
  wdtAt    : List Nat := []              -- 14 R445: ticks of the watchdog resets, newest first; empty
  build    : Word := 0                   -- 14 R468 STL_FW_BUILD; 0
  svn      : Nat := 0                    -- 14 R468 STL_FW_SVN.SVN, 11 bits; 0
  keyIndex : Nat := 0                    -- 14 R468 STL_FW_SVN.KEY_INDEX, 4 bits; 0
  meas2    : Digest := 0                 -- 14 R454: measurement 2, firmware BODY_DIGEST; 0
  romWait  : Bool := false               -- 14 R446: the ROM waits for FW_LOAD; 0
  measGen  : Nat := 0                    -- 14 R468 STL_MEAS_GEN, 32 bits; 0
  anchor   : Digest := 0                 -- 14 R468 STL_ANCHOR0–7; 0
  nonce    : BitVec 128 := 0             -- 14 R468 STL_DBG_NONCE0–3; random: DESIGN CHOICE 0 before the first draw (log 6)
  sessions : List Session := []          -- 14 R451: SPDM sessions, at most 8; empty
  topSeq   : List (Nat × Nat × Nat) := []  -- 12 R394: (sender, session, highest SEQ accepted); empty
  ram      : Mem := {}                   -- 14 R443, R444: the RAM copy of the firmware body, in (72,64) code words; empty
  ramBytes : Nat := 0                    -- 14 R444: its length; 0
  chain    : List Byte := []             -- 14 R452: the chain in the reserved area of tray flash: DESIGN CHOICE none (log 5)
  cert     : Bool := false               -- 14 R452: slot 0 reads a chain, which passes; 0 until the boot check
  csr      : Bool := false               -- 14 R452: GET_CSR has been answered since cold reset; 0
  answer   : List Byte := []             -- 14 R451: the last SPDM answer's content; empty
  ideKeys  : Bool := false               -- 14 R465: IDE keys are held; 0
  deriving DecidableEq, Repr

/-- The guard sequencer (R464 to R467). -/
structure Guard where
  op        : Nat := 0                   -- 14 R468 STL_GUARD.OP: an operation not yet accepted; 0
  arg       : BitVec 48 := 0             -- 14 R468 STL_GUARD_ARG; 0
  running   : Option GuardOp := none     -- 14 R468 STL_GUARD_STATUS.BUSY; none
  side      : List GuardOp := []         -- 14 R467: FREEZE or FENCE_ALL running alongside; empty
  queue     : List GuardOp := []         -- 14 R468 STL_GUARD_STATUS.QUEUED, at most 7; empty
  lastOp    : Nat := 0                   -- 14 R468 STL_GUARD_STATUS.LAST_OP, 4 bits; 0
  lastStatus : Nat := 0                  -- 14 R468 STL_GUARD_STATUS.LAST_STATUS, 8 bits; 0
  discarded : Nat := 0                   -- 14 R468 STL_GUARD_STATUS.DISCARDED, 16 bits saturating; 0
  dumpBase  : Nat := 0                   -- 14 R468 STL_DUMP_LO/HI, address [63:12]; 0
  captured  : Bool := false              -- 14 R468 STL_DUMP_STATUS.CAPTURED; 0
  written   : Bool := false              -- 14 R468 STL_DUMP_STATUS.WRITTEN; 0
  units     : Nat := 0                   -- 14 R468 STL_DUMP_STATUS.UNITS, 12 bits; 0
  off       : Bool := false              -- 14 R467: POWER_OFF has been accepted; 0
  dumpDraw  : Nat := 0                   -- 14 R465: the draw of the snapshot captured; the model's own: DESIGN CHOICE 0 (log 6)
  signalled : Bool := false              -- 15 R473: the tray controller has been signalled over I3C; 0
  deriving DecidableEq, Repr

/-! ### Power (15) and pins (17) -/

/-- The PWR block. -/
structure Pwr where
  capEn    : Bool := true                -- 15 R487 PWR_CTRL.CAP_EN; 1
  fast     : Nat := 8                    -- 15 R487 PWR_CTRL.FAST_LEVEL, 5 bits; 8
  avsEn    : Bool := true                -- 15 R487 PWR_CTRL.AVS_EN; 1
  lock     : Bool := false               -- 15 R487 PWR_CTRL.LOCK; 0
  ready    : Bool := false               -- 15 R487 PWR_STATUS.READY; 0
  unmet    : Bool := false               -- 15 R487 PWR_STATUS.CAP_UNMET; 0
  level    : Nat := 0                    -- 15 R487 PWR_STATUS.CAP_LEVEL, 5 bits; 0
  loop     : Nat := 0                    -- 15 R480: the cap loop's own level, without the FAST_LEVEL floor; 0
  hottest  : Nat := 0                    -- 15 R487 PWR_STATUS.HOTTEST, 8 bits; 0
  cap      : Nat := 0x30D4               -- 15 R487 PWR_CAP.WATTS, 14 bits; 0x30D4
  power    : Nat := 0                    -- 15 R487 PWR_POWER.WATTS, 14 bits; 0
  temp     : Nat := 0                    -- 15 R487 PWR_TEMP.TJ_MAX, 10 bits; 0
  throttle : Nat := 0                    -- 15 R487 PWR_THROTTLE, 64 bits, as of throttleAt; 0
  throttleAt : Nat := 0                  -- 15 R487: tick up to which PWR_THROTTLE is counted; 0
  cause    : Nat := 0                    -- 15 R487 PWR_RESET_CAUSE.CAUSE, 3 bits; 0
  below    : Nat := 0                    -- 15 R480: intervals in a row below 95 % of the cap; 0
  capAt    : Nat := 0                    -- 15 R480: tick of the last interval; 0
  rimTemp  : FMap Nat := []              -- 15 R482: rim sensors 48 to 59, 10 bits; 0
  d48Shown : Bool := false               -- 15 R487 PWR_DOMAIN_HI bit 16: D48 switched on by bring-up; 0
  upAt     : Nat := 0                    -- 15 R471: tick at which the bring-up's D48 step ended; 0
  boot     : Nat := 0                    -- 15 R471: bring-up stage: 0 none, 1 firmware verified, 2 D48 up, 3 ready
  fwAt     : Nat := 0                    -- 15 R471: F
  deriving DecidableEq, Repr

/-- The input pins (R500, R503); true is high for the reset and power-good inputs. -/
structure Pins where
  strap   : BitVec 4 := 0                -- 17 R500 STRAP[3:0]; pin level: DESIGN CHOICE 0 (log 7)
  tray    : Bool := true                 -- 17 R500 TRAY_RESET_N
  perst   : Bool := true                 -- 17 R500 PERST#
  pcap    : Bool := false                -- 17 R500 PCAP_N asserted (low); 0
  pgStl   : Bool := true                 -- 17 R503 PG_STL
  pgHcore : Bool := true                 -- 17 R503 PG_HCORE
  pgHsram : Bool := true                 -- 17 R503 PG_HSRAM
  pgRim   : Bool := true                 -- 17 R503 PG_RIM
  pgMem   : Bool := true                 -- 17 R503 PG_MEM
  pgSd    : Bool := true                 -- 17 R503 PG_SD
  alert   : Bool := false                -- 17 R500 THERM_ALERT_N asserted; 0
  refMain : Bool := true                 -- 17 R503 REFCLK_MAIN has edges
  refTick : Bool := true                 -- 17 R503 REFCLK_TICK has edges
  deriving DecidableEq, Repr

/-! ### The whole device -/

/-- The cores, their mesh and the TCK block as they stood when the program stopped: what the same tick still
brings is judged by them (04 R131; 06 R205). The model's own. -/
structure Cut where
  cores   : FMap Core := []
  transit : List Delivery := []
  tick    : Tick := {}
  deriving DecidableEq, Repr

/-- The state of the Gewen. -/
structure State where
  pending  : List Instr := []            -- the commands that wait, first in, first out; the model's own
  free     : Nat := 0                    -- counter of free values; the model's own: DESIGN CHOICE 0 (log 6)
  readData : DWord := 0                  -- 16 R490: data of the last register read; DESIGN CHOICE 0 (log 8)
  die      : Die := {}
  heaths   : FMap Heath := []            -- 01 R11, 48 heaths
  memory   : Memory := {}
  host     : Mem := {}                   -- host memory as the device writes it, and the far tier; by host bus address
  tick     : Tick := {}
  prog     : Prog := {}
  cores    : FMap Core := []             -- 01 R22, mapped cores by virtual index
  transit  : List Delivery := []         -- 04 R111: deliveries in transit on the mesh; empty
  cut      : Cut := {}                   -- 04 R131, 06 R205: the model's own; empty (log 80)
  srv      : Srv := {}
  load     : Load := {}
  proofs   : Proofs := {}
  links    : FMap Link := []             -- 11 R339, 36 links
  fab      : Fab := {}
  hif      : Hif := {}
  lcf      : Lcf := {}
  stl      : Stl := {}
  guard    : Guard := {}
  pwr      : Pwr := {}
  pins     : Pins := {}
  deriving DecidableEq, Repr

/-- Why the machine stops. No command of the Gewen stops it: the manual gives each an effect. -/
inductive Fault where
  /-- Raised by nothing: a step that the manual calls undefined. Safe. -/
  | undefinedStep
  deriving DecidableEq, Repr

/-- Why a command has no meaning. -/
inductive Refusal where
  /-- Raised by the dispatcher for a row of the table that has no meaning yet. Safe. -/
  | notModelled (mnemonic : String)
  deriving DecidableEq, Repr

/-- What a command answers. -/
abbrev Out := Host.Outcome State Fault Refusal

/-- The machine right after cold reset (R483, R495), before the boot ROM runs. -/
def State.reset : State := {}

end Sys2Proof.Machine
end

