-- ==== Sys2Proof/Machine/Memory.lean ====
section
/-! DEFINITION. Byte memory under the (72,64) code: reading, writing and poisoning its words (05, R134, R137, R144 to R146). -/

namespace Sys2Proof.Machine

open Sys2Proof

/-! ### The (72,64) code (R144, R145) -/

/-- The check bits of data bit d: the three-element subsets in lexicographic order, then the
complements of {k, k + 1, k + 2}. -/
def eccColumns : List Nat :=
  ((List.range 8).flatMap fun a => (List.range 8).flatMap fun b => (List.range 8).filterMap fun c =>
    if a < b ∧ b < c then some (2 ^ a + 2 ^ b + 2 ^ c) else none) ++
  (List.range 8).map fun k => 255 - (2 ^ k + 2 ^ ((k + 1) % 8) + 2 ^ ((k + 2) % 8))

/-- The XOR of the columns of the data bits that are set in `w`. -/
def eccXor (w : Nat) : List Nat → Nat
  | [] => 0
  | c :: cs => (if w.testBit 0 then c else 0) ^^^ eccXor (w / 2) cs

/-- The check bits of a data word. -/
def eccCheck (w : Nat) : Nat := eccXor w eccColumns

/-- How a stored word is decoded (R145). -/
inductive EccKind where
  | clean | corrected | bad
  deriving DecidableEq, Repr

/-- What the decoding of a stored word with the given flips delivers: its kind, and how the data
delivered differs from the data written. The code is linear, so the flips alone decide it. -/
def eccRead (f : BitVec 72) : EccKind × DWord :=
  let d := f.extractLsb' 0 64
  let s := (f.toNat >>> 64) ^^^ eccCheck d.toNat
  if s = 0 then (.clean, d)
  else if (List.range 8).any (fun i => 2 ^ i == s) then (.corrected, d)
  else match eccColumns.findIdx? (· == s) with
    | some i => (.corrected, d ^^^ BitVec.ofNat 64 (2 ^ i))
    | none => (.bad, d)

/-- The flips of a word in poison encoding (R146). -/
def poisonFlip : BitVec 72 := BitVec.ofNat 72 (0x03 * 2 ^ 64)

/-! ### Reading -/

/-- What a byte differs by from what was written, given its word's flips. -/
def residByte (flips : FMap (BitVec 72)) (a : Nat) : Byte :=
  let f := look 0 flips (a / 8)
  if f = 0 then 0 else BitVec.ofNat 8 ((eccRead f).2.toNat >>> (8 * (a % 8)))

/-- The byte that a read of address `a` delivers. -/
def memByte (m : Mem) (a : Nat) : Byte := look 0 m.cells a ^^^ residByte m.flips a

/-- The `n` bytes that a read from address `a` on delivers. -/
def memGet (m : Mem) (a : Nat) : Nat → List Byte
  | 0 => []
  | n + 1 => memByte m a :: memGet m (a + 1) n

/-- The little-endian number of `n` bytes from address `a` on. -/
def memNat (m : Mem) (a n : Nat) : Nat := leNat (memGet m a n)

/-- The flips listed for the words that bytes `a` to `a + n − 1` touch. -/
def flipsIn (m : Mem) (a n : Nat) : FMap (BitVec 72) :=
  if n = 0 then [] else m.flips.filter fun p => decide (a / 8 ≤ p.1 ∧ p.1 ≤ (a + n - 1) / 8)

/-- The numbers of the uncorrectable words among those touched. -/
def badWords (m : Mem) (a n : Nat) : List Nat :=
  ((flipsIn m a n).filter fun p => (eccRead p.2).1 == .bad).map (·.1)

/-- The numbers of the words touched that a read corrects. -/
def correctedWords (m : Mem) (a n : Nat) : List Nat :=
  ((flipsIn m a n).filter fun p => (eccRead p.2).1 == .corrected).map (·.1)

/-! ### Writing -/

/-- The word `w` stored anew as it is delivered, if it can be corrected; a bad word stays bad. -/
def settleWord (m : Mem) (w : Nat) : Mem :=
  let f := look 0 m.flips w
  if f = 0 then m
  else if (eccRead f).1 = .bad then m
  else { cells := putList 0 m.cells (8 * w) (memGet m (8 * w) 8), flips := drop1 m.flips w }

/-- The words partly covered by bytes `a` to `a + n − 1`: the read of a read-modify-write touches
them (R134). -/
def partWords (a n : Nat) : List Nat :=
  if n = 0 then []
  else
    (if a % 8 ≠ 0 ∨ n < 8 then [a / 8] else []) ++
    (if (a + n) % 8 ≠ 0 ∧ (a + n) / 8 ≠ a / 8 then [(a + n) / 8] else [])

/-- The words wholly covered begin at `wordLo` and end before `wordHi`. -/
def wordLo (a : Nat) : Nat := (a + 7) / 8
def wordHi (a n : Nat) : Nat := (a + n) / 8

/-- Bytes written from address `a` on. A word partly covered is read, corrected and merged; one that
is uncorrectable stays so, and nothing is raised or scored for either (R134, R151): DESIGN CHOICE (log 101). -/
def memPut (m : Mem) (a : Nat) (bs : List Byte) : Mem :=
  let n := bs.length
  let m := (partWords a n).foldl settleWord m
  { cells := putList 0 m.cells a bs
    flips := if wordLo a < wordHi a n then dropRange m.flips (wordLo a) (wordHi a n) else m.flips }

/-- Zeros written to bytes `a` to `a + n − 1`. -/
def memZero (m : Mem) (a n : Nat) : Mem :=
  let m := (partWords a n).foldl settleWord m
  { cells := dropRange m.cells a (a + n)
    flips := if wordLo a < wordHi a n then dropRange m.flips (wordLo a) (wordHi a n) else m.flips }

/-- Word `w` written in poison encoding (R146). -/
def memPoison (m : Mem) (w : Nat) : Mem :=
  let bs := memGet m (8 * w) 8
  { cells := putList 0 m.cells (8 * w) bs, flips := ins1 (drop1 m.flips w) w poisonFlip }

/-- The canonical form of a memory: strictly rising addresses, no byte and no flip listed as 0. -/
def Mem.wf (m : Mem) : Bool := canon 0 m.cells && canon 0 m.flips

end Sys2Proof.Machine
end

