-- ==== Sys2Proof/Machine/Ops.lean ====
section
/-! DEFINITION. Named reads and writes of the numbered parts of the state, the tick counter and the virtual grid. -/

namespace Sys2Proof.Machine

open Sys2Proof

/-! ### Parts by number -/

def coreAt (s : State) (v : Nat) : Core := look {} s.cores v
def setCore (s : State) (v : Nat) (c : Core) : State := { s with cores := put {} s.cores v c }

def heathAt (s : State) (h : Nat) : Heath := look {} s.heaths h
def setHeath (s : State) (h : Nat) (x : Heath) : State := { s with heaths := put {} s.heaths h x }
def updHeath (s : State) (h : Nat) (f : Heath → Heath) : State := setHeath s h (f (heathAt s h))

def linkAt (s : State) (n : Nat) : Link := look {} s.links n
def setLink (s : State) (n : Nat) (l : Link) : State := { s with links := put {} s.links n l }
def updLink (s : State) (n : Nat) (f : Link → Link) : State := setLink s n (f (linkAt s n))

def fnAt (s : State) (f : Nat) : Fn := look {} s.hif.fns f
def setFn (s : State) (f : Nat) (x : Fn) : State :=
  { s with hif := { s.hif with fns := put {} s.hif.fns f x } }
def updFn (s : State) (f : Nat) (g : Fn → Fn) : State := setFn s f (g (fnAt s f))

def chanAt (s : State) (c : Nat) : Chan := look {} s.memory.chans c
def setChan (s : State) (c : Nat) (x : Chan) : State :=
  { s with memory := { s.memory with chans := put {} s.memory.chans c x } }

def spareAt (s : State) (d : Nat) : Spare := look {} s.memory.spares d
def setSpare (s : State) (d : Nat) (x : Spare) : State :=
  { s with memory := { s.memory with spares := put {} s.memory.spares d x } }

def setDdr (s : State) (m : Mem) : State := { s with memory := { s.memory with ddr := m } }

def reqAt (s : State) (i : Nat) : Req := look {} s.srv.books.reqs i
def setReq (s : State) (i : Nat) (r : Req) : State :=
  { s with srv := { s.srv with books := { s.srv.books with reqs := put {} s.srv.books.reqs i r } } }
def updReq (s : State) (i : Nat) (f : Req → Req) : State := setReq s i (f (reqAt s i))

def tenantAt (s : State) (i : Nat) : Tenant := look {} s.srv.books.tenants i
def setTenant (s : State) (i : Nat) (t : Tenant) : State :=
  { s with srv := { s.srv with
      books := { s.srv.books with tenants := put {} s.srv.books.tenants i t } } }

def slotAt (s : State) (i : Nat) : Slot := look {} s.load.slots i
def setSlot (s : State) (i : Nat) (x : Slot) : State :=
  { s with load := { s.load with slots := put {} s.load.slots i x } }

def adapterAt (s : State) (i : Nat) : Adapter := look {} s.load.adapters i
def setAdapter (s : State) (i : Nat) (x : Adapter) : State :=
  { s with load := { s.load with adapters := put {} s.load.adapters i x } }

/-- A number of the host's memory: the device writes `bs` at host bus address `a`. -/
def hostWrite (s : State) (a : Nat) (bs : List Byte) : State := { s with host := memPut s.host a bs }

/-- A host link trained for CXL.io alone (14 R446). -/
def ioOnly (l : HostLink) : HostLink := { l with cache := false, mem := false }

/-! ### The guard's operations (14 R463, R467) -/

/-- The operation is running or queued already. -/
def guardKnown (s : State) (op : GuardOp) : Bool :=
  s.guard.running == some op || s.guard.side.contains op || s.guard.queue.contains op

/-- DDR is to be zeroed before it is used again. -/
def ddrHeld (s : State) : Bool := guardKnown s .zeroizeDdr

/-! ### Time -/

/-- The GTC. -/
def now (s : State) : Nat := s.tick.gtc

/-- The GTC taken forward to tick `t`, where it is behind and the tick domain counts (R177). -/
def advance (s : State) (t : Nat) : State :=
  if s.tick.running ∧ s.tick.gtc < t then { s with tick := { s.tick with gtc := t } } else s

/-- One tick: the GTC counts where the tick domain runs (R177). -/
def tickOnce (s : State) : State :=
  if s.tick.running then { s with tick := { s.tick with gtc := s.tick.gtc + 1 } } else s

/-- A measurement has changed (R454). -/
def bumpMeas (s : State) : State := { s with stl := { s.stl with measGen := (s.stl.measGen + 1) % 2 ^ 32 } }

/-- The debug unlock ends (14 R457). -/
def relock (s : State) : State :=
  if s.lcf.unlocked then
    bumpMeas { s with lcf := { s.lcf with unlocked := false, scope := 0, until_ := 0 } }
  else s

/-! ### Events by window (12 R404) -/

/-- Ticks of a window. -/
def winTicks : Nat := 2 ^ 28

/-- `k` events at tick `t`. -/
def Win.add (w : Win) (t k : Nat) : Win :=
  let m := t / winTicks
  if m = w.no then { w with n := w.n + k }
  else { no := m, n := k, prev := if m = w.no + 1 then w.n else 0 }

/-- Events in the last complete window before tick `t`. -/
def Win.last (w : Win) (t : Nat) : Nat :=
  let m := t / winTicks
  if m = 0 then 0 else if m = w.no then w.prev else if m = w.no + 1 then w.n else 0

/-! ### The loaded program and the virtual grid (R22) -/

/-- A program is loaded and has neither completed nor stopped. -/
def progLive (s : State) : Bool :=
  match s.prog.phase with
  | .loaded => true
  | .due => true
  | .running => true
  | _ => false

/-- Columns of the grid, and columns and rows of a heath's block. -/
def gridCols (grid : Nat) : Nat := if grid = 1 then 40 else 32
def gridRows (grid : Nat) : Nat := if grid = 1 then 30 else 36
def blockW (grid : Nat) : Nat := if grid = 1 then 5 else 4
def blockH (grid : Nat) : Nat := if grid = 1 then 5 else 6

/-- The virtual cores of a grid. -/
def gridCores (grid : Nat) : Nat := gridCols grid * gridRows grid

def vxOf (s : State) (v : Nat) : Nat := v % gridCols s.prog.grid
def vyOf (s : State) (v : Nat) : Nat := v / gridCols s.prog.grid

/-- The heath of virtual core `v` on a grid (R22). -/
def heathIn (grid v : Nat) : Nat :=
  (v / gridCols grid / blockH grid) * 8 + v % gridCols grid / blockW grid

def heathOf (s : State) (v : Nat) : Nat := heathIn s.prog.grid v

/-- The slot of virtual core `v` within its heath. -/
def slotIn (grid v : Nat) : Nat :=
  (v / gridCols grid % blockH grid) * blockW grid + v % gridCols grid % blockW grid

/-- The `n`-th clear bit of a heath's map. -/
def nthClear (m : BitVec 27) (n : Nat) : Option Nat :=
  ((List.range 27).filter fun p => !m.getLsbD p)[n]?

/-- The physical core of virtual core `v`, within its heath. -/
def physOf (s : State) (v : Nat) : Option Nat :=
  nthClear (heathAt s (heathOf s v)).map (slotIn s.prog.grid v)

/-- Virtual core `v` is mapped by the loaded program. -/
def mapped (s : State) (v : Nat) : Bool := progLive s && decide (v < s.prog.cores)

/-- The virtual core at (vx, vy), where the grid has it. -/
def coreOfXY (s : State) (vx vy : Nat) : Option Nat :=
  if vx < gridCols s.prog.grid ∧ vy < gridRows s.prog.grid then some (vy * gridCols s.prog.grid + vx)
  else none

/-! ### Shared codes (R9, R10) -/

def stOK : Nat := 0x00
def stCancelled : Nat := 0x01
def stDeadline : Nat := 0x02
def stAlready : Nat := 0x03
def stFnDisabled : Nat := 0x04
def stLinkDown : Nat := 0x05
def stTimeout : Nat := 0x06
def stBudget : Nat := 0x07
def stAdapter : Nat := 0x08
def stVersion : Nat := 0x09
def stPoisoned : Nat := 0x0A
def stFenced : Nat := 0x0B
def stOverrun : Nat := 0x0C
def stDivergence : Nat := 0x0D
def stNoRes : Nat := 0x0E
def stMalformed : Nat := 0x0F
def stProgFault : Nat := 0x10
def stMissing : Nat := 0x11
def stMismatch : Nat := 0x12

def fcIllegal : Nat := 0x01
def fcBounds : Nat := 0x02
def fcOwner : Nat := 0x03
def fcPower : Nat := 0x04
def fcUnmapped : Nat := 0x05
def fcProtect : Nat := 0x06
def fcWindow : Nat := 0x07
def fcLength : Nat := 0x08
def fcUncorr : Nat := 0x09
def fcOverrun : Nat := 0x0A
def fcHoldLimit : Nat := 0x0B
def fcLinkDown : Nat := 0x0C
def fcFenced : Nat := 0x0D
def fcGrid : Nat := 0x0E

end Sys2Proof.Machine
end

