-- ==== Sys2Proof/Machine/Operands.lean ====
section
/-! DEFINITION. The fields of core instructions, their reserved bits and values, operand formats and classes, and the checked accesses to the plate (02 R40, R46; 04 R93 to R120; 05 R133 to R137). -/

namespace Sys2Proof.Machine

open Sys2Proof

/-- A core fault in the making: code and detail (R129), whether it is tied to an instruction, and the plate
words that the reads before it and the faulting read have corrected (R137). -/
structure Flt where
  code   : Nat
  detail : DWord
  instr  : Bool := true
  ce     : Nat := 0
  deriving DecidableEq, Repr

/-- A fault after `n` corrected words. -/
def Flt.after (f : Flt) (n : Nat) : Flt := { f with ce := f.ce + n }

/-! ### Formats and operand classes (R40, R46, table before R71) -/

def fmtElem (fmt : Nat) : Nat := fmt % 16
def fmtMx (fmt : Nat) : Bool := fmt.testBit 4

/-- The format field names a format (R40). -/
def fmtOk (fmt : Nat) : Bool :=
  decide (fmtElem fmt ≤ 9) && (!fmtMx fmt || (decide (3 ≤ fmtElem fmt) && decide (fmtElem fmt ≤ 8)))

/-- The classes of operand pairs (R46). -/
inductive OpClass where
  | fp46 | fp8 | mxint8 | int8 | bf16 | fp16
  deriving DecidableEq, Repr

/-- The class that a press or VMP operand of a format belongs to, where it has one. -/
def classOf (fmt : Nat) : Option OpClass :=
  match fmtElem fmt with
  | 1 => some .bf16
  | 2 => some .fp16
  | 3 => some .fp8
  | 4 => some .fp8
  | 5 => some .fp46
  | 6 => some .fp46
  | 7 => some .fp46
  | 8 => if fmtMx fmt then some .mxint8 else some .int8
  | _ => none

/-- K_t, the elements of a tile row. -/
def classK : OpClass → Nat
  | .fp46 => 1024
  | .fp8 => 512
  | .mxint8 => 512
  | .int8 => 512
  | .bf16 => 128
  | .fp16 => 128

/-- Elements of a segment. -/
def classSeg (k : OpClass) : Nat := classK k / 8

/-- Elements of a product group. -/
def classGroup : OpClass → Nat
  | .bf16 => 16
  | .fp16 => 16
  | _ => 32

/-- Product groups of a segment. -/
def classGroups (k : OpClass) : Nat := classSeg k / classGroup k

/-- The press draw code of a class (table of R215). -/
def classDraw : OpClass → Nat
  | .fp46 => 3
  | .bf16 => 1
  | .fp16 => 1
  | _ => 2

/-- Tokens of a press draw code (table of R216): none without a press. -/
def drawTokens : Nat → Nat
  | 3 => 9
  | 2 => 8
  | 1 => 6
  | _ => 0

/-- Elements from the packed bytes of R43: element i in bits [wi + w − 1 : wi]. -/
def unpackElems (w n : Nat) (bs : List Byte) : List Nat :=
  let v := leNat bs
  (List.range n).map fun i => v >>> (w * i) % 2 ^ w

/-- Elements packed as in R43. -/
def packElems (w : Nat) (es : List Nat) : List Byte :=
  leBytes ((es.length * w + 7) / 8) (es.foldr (fun e acc => acc * 2 ^ w + e % 2 ^ w) 0)

/-! ### Instruction fields -/

def opOf (w : Nat) : Nat := bits w 63 56
def predOf (w : Nat) : Nat := bits w 55 53

/-- The opcode bytes of R99. -/
def opcodes : List Nat :=
  [0x00, 0x01, 0x02, 0x03, 0x08, 0x09, 0x0A, 0x0B, 0x10, 0x11, 0x12, 0x13, 0x14, 0x15, 0x16, 0x17,
   0x18, 0x19, 0x1A, 0x1B, 0x1C, 0x20, 0x21, 0x22, 0x28, 0x29, 0x2B, 0x30, 0x31, 0x32, 0x33, 0x34, 0x37]

/-- PRESS and VMP fields (tables of R101, R102, R77, R88). -/
def legalPress (w : Nat) : Bool :=
  let vmp := decide (0x08 ≤ opOf w)
  match opOf w % 8 with
  | 0 => bits w 28 0 == 0 && (!vmp || bits w 52 49 == 0) && fmtOk (bits w 48 44) &&
      (classOf (bits w 48 44)).isSome
  | 1 => predOf w == 0 &&
      (if vmp then bits w 25 0 == 0 && decide (bits w 40 33 + bits w 48 41 + 1 ≤ 256) &&
        fmtOk (bits w 32 28)
       else bits w 19 0 == 0 && decide (bits w 37 27 + bits w 48 38 + 1 ≤ 2048) &&
        fmtOk (bits w 26 22))
  | k => predOf w == 0 && bits w 21 0 == 0 && (!vmp || bits w 52 49 == 0) &&
      (k == 2 || (bits w 26 23 == 0 && !bit w 22)) &&
      decide (bits w 48 38 + bits w 37 27 + 1 ≤ if vmp then 256 else 2048)

/-- The number of function codes of VALU, VFN, VRED, VMASK and VLANE. -/
def fnCount : Nat → Nat
  | 0x12 => 13
  | 0x13 => 8
  | 0x14 => 3
  | 0x15 => 4
  | _ => 3

/-- VEC fields (tables of R102 to R106). -/
def legalVec (w : Nat) : Bool :=
  match opOf w with
  | 0x10 => bits w 18 0 == 0 && fmtOk (bits w 23 19) && (fmtMx (bits w 23 19) || bits w 43 40 == 0)
  | 0x11 => bits w 8 0 == 0 && fmtOk (bits w 23 19) && (fmtMx (bits w 23 19) || bits w 43 40 == 0) &&
      bits w 17 16 != 3 && (bits w 17 16 == 2 || bits w 15 9 == 0) &&
      (!fmtMx (bits w 23 19) || predOf w == 0)
  | 0x17 => bits w 52 51 == 0 && bits w 43 40 == 0 && bits w 18 0 == 0 && decide (bits w 23 19 ≤ 3) &&
      !(bits w 23 19 == 0 && bits w 50 48 == 0)
  | op =>
    let fn := bits w 32 28
    decide (fn < fnCount op) && bits w 11 0 == 0 &&
    (op == 0x12 && fn == 3 || bits w 37 33 == 0) &&
    (op == 0x12 || op == 0x15 || bits w 42 38 == 0) &&
    (if op == 0x12 || op == 0x14 then bits w 26 25 != 3 else bits w 27 25 == 0) &&
    (op == 0x16 || bits w 17 13 == 0) && (op == 0x16 || op == 0x14 || !bit w 12) &&
    (op != 0x15 || (bits w 52 51 == 0 && bits w 50 48 != 0))

/-- XFER fields (table of R110). -/
def legalXfer (w : Nat) : Bool :=
  !bit w 0 && bits w 48 33 != 0 &&
  match opOf w with
  | 0x20 => true
  | 0x21 => !bit w 32 && bits w 31 20 == 0 && predOf w == 0
  | _ => !bit w 32

/-- SYNC and CTRL fields (tables of R112 to R114, R120). -/
def legalSeq (w : Nat) : Bool :=
  predOf w == 0 &&
  match opOf w with
  | 0x29 => bits w 46 0 == 0
  | 0x2B => bits w 27 0 == 0 && decide (bits w 52 42 + bits w 41 31 + 1 ≤ 2048) && bits w 30 28 != 7
  | 0x31 => bits w 18 0 == 0
  | 0x32 => bits w 15 0 == 0 && bits w 52 49 != 0
  | 0x33 => bits w 12 0 == 0 && bits w 52 49 != 0
  | 0x34 => bits w 8 0 == 0 && bits w 52 50 != 0 && bits w 43 41 != 7 &&
      (decide (bits w 43 41 ≤ 1) || bits w 40 9 == 0)
  | _ => bits w 52 0 == 0

/-- The word is an instruction: GEN 00, an opcode of the table, reserved fields zero, no reserved value
(R98, R99). -/
def legalWord (w : Nat) : Bool :=
  opcodes.contains (opOf w) &&
  (if opOf w < 0x10 then legalPress w
   else if opOf w < 0x18 then legalVec w
   else if opOf w < 0x20 then bits w 23 0 == 0
   else if opOf w < 0x28 then legalXfer w
   else legalSeq w)

/-- The word can issue in a setup section (R97). -/
def setupWord (step : Bool) (w : Nat) : Bool :=
  match opOf w with
  | 0x28 => !step
  | 0x37 => step
  | 0x2B => true
  | op => decide (0x30 ≤ op)

/-! ### Registers of a core (R93, R101) -/

def baseOf (c : Core) (i : Nat) : DWord := look 0 c.base i
/-- B0 reads as zero, and nothing is written to it. -/
def setBase (c : Core) (i : Nat) (v : DWord) : Core :=
  if i = 0 then c else { c with base := put 0 c.base i v }
/-- M0 reads as all ones. -/
def maskOf (c : Core) (i : Nat) : DWord := if i = 0 then BitVec.allOnes 64 else look 0 c.mask i
def setMask (c : Core) (i : Nat) (v : DWord) : Core :=
  if i = 0 then c else { c with mask := put 0 c.mask i v }
def ctxOf (c : Core) (i : Nat) : BitVec 128 := look 0 c.ctx i
def lanesOf (c : Core) (r : Nat) : List Word := lookList 0 c.vregs (64 * r) 64
def setLanes (c : Core) (r : Nat) (l : List Word) : Core :=
  { c with vregs := putList 0 c.vregs (64 * r) (l.take 64) }
/-- Flags ORed into the flag word, with the unit's source bit (R66). -/
def raise (c : Core) (src fl : Word) : Core := { c with sticky := c.sticky ||| withSrc src fl }

/-! ### The plate (R101, R118, R133 to R137) -/

/-- Owner codes (table before R118). -/
def ownNone : Nat := 0
def ownPress : Nat := 1
def ownVec : Nat := 2
def ownDma0 : Nat := 3
def ownDma1 : Nat := 4
def ownMesh : Nat := 5
def ownShared : Nat := 6

def plateBytes : Nat := 2 ^ 25
def frameBytes : Nat := 2 ^ 14

/-- PLATE_BOUNDS at an offset. -/
def boundsFlt (off : Nat) : Flt :=
  { code := fcBounds, detail := dw (off % 2 ^ 25 + (if off < 2 ^ 25 then 0 else 2 ^ 25)) }

/-- The frames that bytes `off` to `off + n − 1` of a plate touch. -/
def framesOf (off n : Nat) : List Nat :=
  (List.range ((min (off + n) plateBytes - 1) / frameBytes + 1 - off / frameBytes)).map
    (off / frameBytes + ·)

/-- The owner may make the access to a frame with tag `t`. -/
def mayUse (t owner : Nat) (write : Bool) : Bool := t == owner || (t == ownShared && !write)

/-- The check of an access of `n` bytes by a queue (R101, R118); OWNERSHIP names the lowest frame (log 82). -/
def checkPlate (tags : FMap Nat) (owner off n : Nat) (write : Bool) : Option Flt :=
  if plateBytes ≤ off then some (boundsFlt off)
  else match (framesOf off n).find? fun f => look 0 tags f == ownNone with
    | some f => some (boundsFlt (max off (f * frameBytes)))
    | none =>
      if plateBytes < off + n then some (boundsFlt plateBytes)
      else match (framesOf off n).find? fun f => !mayUse (look 0 tags f) owner write with
        | some f =>
          let w := if write then 2 ^ 19 else 0
          some { code := fcOwner, detail := dw (f + look 0 tags f * 2 ^ 12 + owner * 2 ^ 16 + w) }
        | none => none

/-- UNCORRECTABLE at a plate offset. -/
def plateUncorr (w : Nat) : Flt := { code := fcUncorr, detail := dw (8 * w) }

/-- A core at work on one instruction, with the plate words corrected on the way (R137). -/
structure Ex where
  core : Core
  ce   : Nat := 0
  deriving DecidableEq, Repr

/-- The data of accesses already checked. -/
def plateFetch (x : Ex) (off n : Nat) : Except Flt (List Byte × Ex) :=
  let ce := x.ce + (correctedWords x.core.plate off n).length
  match badWords x.core.plate off n with
  | w :: _ => .error ((plateUncorr w).after ce)
  | [] => .ok (memGet x.core.plate off n, { x with ce := ce })

/-- A checked read of the plate. -/
def plateRead (x : Ex) (owner off n : Nat) : Except Flt (List Byte × Ex) :=
  match checkPlate x.core.tags owner off n false with
  | some f => .error (f.after x.ce)
  | none => plateFetch x off n

/-- Bytes written to the plate; a partly covered word is read first (R134). -/
def plateStore (x : Ex) (off : Nat) (bs : List Byte) : Except Flt Ex :=
  let ce := x.ce + ((partWords off bs.length).filter fun w =>
    (correctedWords x.core.plate (8 * w) 8).length != 0).length
  match (partWords off bs.length).filter fun w => (badWords x.core.plate (8 * w) 8).length != 0 with
  | w :: _ => .error ((plateUncorr w).after ce)
  | [] => .ok { core := { x.core with plate := memPut x.core.plate off bs }, ce := ce }

/-- A checked write of the plate. -/
def plateWrite (x : Ex) (owner off : Nat) (bs : List Byte) : Except Flt Ex :=
  match checkPlate x.core.tags owner off bs.length true with
  | some f => .error (f.after x.ce)
  | none => plateStore x off bs

/-- An access of a plate: offset, length, whether it writes. -/
abbrev Access := Nat × Nat × Bool

/-- The fault of lower code, the first where they are equal (R131). -/
def lowerFlt : Option Flt → Option Flt → Option Flt
  | none, g => g
  | some f, none => some f
  | some f, some g => if g.code < f.code then some g else some f

/-- The checks of accesses that run together: the lowest code counts (R131). -/
def checkAll (tags : FMap Nat) (owner : Nat) : List Access → Option Flt
  | [] => none
  | (off, n, w) :: as => lowerFlt (checkPlate tags owner off n w) (checkAll tags owner as)

/-- ILLEGAL_OP, with the instruction word as its detail. -/
def illegal (w : DWord) : Flt := { code := fcIllegal, detail := w }

end Sys2Proof.Machine
end

