-- ==== Sys2Proof/Machine/Device.lean ====
section
/-! DEFINITION. The device address space: regions, interleave, the far tier, channel scores, and reads and writes of DDR with their handling of uncorrectable words (05 R138 to R143, R151, R157, R159, R160). -/

namespace Sys2Proof.Machine

open Sys2Proof

/-! ### Regions (R139 to R141) -/

def unit2M : Nat := 2 ^ 21

/-- Entry 63, fixed over the host-shared region (R140). -/
def sharedRegion : Region := { valid := true, kind := 5, base := 0x238000, limit := 0x23FFFF }

def regionNo (m : Memory) (n : Nat) : Region := if n = 63 then sharedRegion else look {} m.regions n

/-- First and last byte of a region. -/
def Region.lo (r : Region) : Nat := r.base * unit2M
def Region.hi (r : Region) : Nat := r.limit * unit2M + (unit2M - 1)

/-- The entry governs addresses: KIND 6 and 7 name no region. -/
def Region.live (r : Region) : Bool := r.valid && decide (r.kind ≤ 5)
def Region.holds (r : Region) (a : Nat) : Bool := r.live && decide (r.lo ≤ a) && decide (a ≤ r.hi)

/-- The entry that governs an address: the valid entry of lowest index that contains it. -/
def regionAt (m : Memory) (a : Nat) : Option Nat := least (fun n => (regionNo m n).holds a) 64

/-- The kind of an address, where an entry governs it. -/
def kindAt (m : Memory) (a : Nat) : Option Nat := (regionAt m a).map fun n => (regionNo m n).kind

def ddrEnd : Nat := 0x048000000000
def farLo : Nat := 0x400000000000
def farHi : Nat := 0x800000000000
def farSeg : Nat := 2 ^ 34

/-- A fault of the device side, at an address. -/
def devFlt (code a : Nat) : Flt := { code := code, detail := dw (a % 2 ^ 48) }

/-- Core DMA may write a region of this kind (table of R139). -/
def mayWrite (r : Region) : Bool := r.kind != 4 && !((r.kind == 0 || r.kind == 2) && r.wp)

/-- The first of the far segments from `s` on, `n` of them, that fails a test: the first byte of an access at
`a` in it. -/
def segFail (m : Memory) (a : Nat) (bad : FarSeg → Bool) (s : Nat) : Nat → Option Nat
  | 0 => none
  | n + 1 =>
    if bad (look {} m.far s) then some (max a (farLo + s * farSeg)) else segFail m a bad (s + 1) n

/-- The check of the far segments from `s` on, `n` of them, for an access at `a`: the lower code first (R131,
R160). -/
def checkSegs (m : Memory) (a : Nat) (write : Bool) (s n : Nat) : Option Flt :=
  match segFail m a (fun g => !g.valid) s n with
  | some x => some (devFlt fcUnmapped x)
  | none =>
    if write then (segFail m a (fun g => !g.write) s n).map (devFlt fcProtect) else none

/-- The check of a device-side access of `n` bytes (R138, R139, R160). The address of a fault is the access's first
byte in DDR, and the failing segment's first byte in the far tier (R129; log 82). -/
def checkDev (m : Memory) (a n : Nat) (write : Bool) : Option Flt :=
  if farLo ≤ a ∧ a < farHi then
    if farHi < a + n then some (devFlt fcUnmapped farHi)
    else
      let s := (a - farLo) / farSeg
      checkSegs m a write s ((a + n - 1 - farLo) / farSeg + 1 - s)
  else if ddrEnd < a + n then some (devFlt fcUnmapped a)
  else match regionAt m a with
    | none => some (devFlt fcUnmapped a)
    | some i =>
      let r := regionNo m i
      if r.hi < a + n - 1 then some (devFlt fcUnmapped a)
      else if write && !mayWrite r then some (devFlt fcProtect a)
      else none

/-! ### Interleave and channels (R142, R143) -/

/-- The logical channel of a device address. -/
def chanOf (a : Nat) : Nat :=
  let g := bits a 42 11
  let q := g / 72
  let h := bits q 5 0 ^^^ bits q 11 6 ^^^ bits q 17 12 ^^^ bits q 23 18 ^^^ bits q 24 24
  (g % 72 + h) % 72

/-- The byte address within the channel. -/
def chanOff (a : Nat) : Nat := bits a 42 11 / 72 * 2048 + a % 2048

/-- The physical channel that serves a logical channel (R143, R154). -/
def physChan (m : Memory) (c : Nat) : Nat :=
  let d := c / 9
  let p := c % 9
  let sp := look {} m.spares d
  if sp.pos = p ∧ sp.progress = 100 then 10 * d + 9 else 10 * d + p

/-! ### Reading and writing (R145, R157, R165) -/

/-- A descriptor at work: its core, the device memory and the host's, the words found in error (word
address, whether uncorrectable), the KV words replaced, the accesses to the host-shared region, and the
span of the proof store. -/
structure Dx where
  ex    : Ex
  mem   : Memory
  host  : Mem
  hits  : List (Nat × Bool) := []
  subs  : List Nat := []
  share : List (Nat × Nat × Bool) := []
  store : Nat × Nat := (0, 0)
  deriving DecidableEq, Repr

/-- How a part of a descriptor's work ends. -/
inductive DmaOut (α : Type) where
  | ok (a : α) (d : Dx)
  | stall (d : Dx)
  | flt (f : Flt) (d : Dx)

/-- First byte of the host-shared region (R138). -/
def shareLo : Nat := 0x047000000000

/-- An access to the host-shared region noted (R434). -/
def noteShare (d : Dx) (a n : Nat) (write : Bool) : Dx :=
  if shareLo ≤ a ∧ a < ddrEnd then { d with share := d.share ++ [(a, n, write)] } else d

/-- Words in error noted. -/
def noteHits (d : Dx) (a n : Nat) : Dx :=
  { d with hits := d.hits ++ (correctedWords d.mem.ddr a n).map (fun w => (8 * w, false)) ++
      (badWords d.mem.ddr a n).map (fun w => (8 * w, true)) }

/-- Bytes of `bs`, which start at `a`, replaced by those of word `w`. -/
def patchWord (bs : List Byte) (a w : Nat) (new : List Byte) : List Byte :=
  bs.zipIdx.map fun p =>
    if (a + p.2) / 8 = w then nth 0 new ((a + p.2) % 8) else p.1

/-- Uncorrectable DDR words of a read handled one by one (R157). -/
def settleBad (d : Dx) (a : Nat) (bs : List Byte) : List Nat → DmaOut (List Byte)
  | [] => .ok bs d
  | w :: ws =>
    match kindAt d.mem (8 * w) with
    | some 1 => settleBad { d with subs := d.subs ++ [8 * w] } a
        (patchWord bs a w (List.replicate 8 0)) ws
    | some 0 => .stall d
    | some 2 => .stall d
    | some 4 =>
      let o := w ^^^ 0x100
      if d.store.1 ≤ 8 * w ∧ 8 * w < d.store.2 then
        if badWords d.mem.ddr (8 * o) 8 = [] then
          settleBad (noteHits d (8 * o) 8) a (patchWord bs a w (memGet d.mem.ddr (8 * o) 8)) ws
        else .flt (devFlt fcUncorr (8 * w)) (noteHits d (8 * o) 8)
      else .flt (devFlt fcUncorr (8 * w)) d
    | _ => .flt (devFlt fcUncorr (8 * w)) d

/-- The host bus address of a far address (R160). -/
def farHost (m : Memory) (a : Nat) : Nat :=
  let g := look {} m.far ((a - farLo) / farSeg)
  (g.host * 2 ^ 12 + (a - farLo) % farSeg) % 2 ^ 64

/-- A far access cut at the segments: pieces of (address, length). -/
def farPieces (a n : Nat) : List (Nat × Nat) :=
  let e := a + n
  let s0 := (a - farLo) / farSeg
  (List.range ((e - 1 - farLo) / farSeg + 1 - s0)).map fun i =>
    let lo := max a (farLo + (s0 + i) * farSeg)
    (lo, min e (farLo + (s0 + i + 1) * farSeg) - lo)

/-- Far pieces read; a word that is bad after the one retry is a fault. -/
def farRead (d : Dx) : List (Nat × Nat) → DmaOut (List Byte)
  | [] => .ok [] d
  | (a, n) :: ps =>
    let h := farHost d.mem a
    match badWords d.host h n with
    | w :: _ => .flt (devFlt fcUncorr (a + (8 * w - h))) d
    | [] => match farRead d ps with
      | .ok bs d => .ok (memGet d.host h n ++ bs) d
      | .stall d => .stall d
      | .flt f d => .flt f d

/-- A read of the device side, already checked. -/
def devRead (d : Dx) (a n : Nat) : DmaOut (List Byte) :=
  if farLo ≤ a then farRead d (farPieces a n)
  else settleBad (noteHits (noteShare d a n false) a n) a (memGet d.mem.ddr a n) (badWords d.mem.ddr a n)

/-- Far pieces written. -/
def farWrite (m : Memory) (host : Mem) (bs : List Byte) : List (Nat × Nat) → Mem
  | [] => host
  | (a, n) :: ps => farWrite m (memPut host (farHost m a) (bs.take n)) (bs.drop n) ps

/-- A write of the device side, already checked. -/
def devWrite (d : Dx) (a : Nat) (bs : List Byte) : Dx :=
  if farLo ≤ a then { d with host := farWrite d.mem d.host bs (farPieces a bs.length) }
  else
    let d := noteShare d a bs.length true
    { d with mem := { d.mem with ddr := memPut d.mem.ddr a bs } }

/-! ### Scores (R151) and substitutions (R159) -/

/-- A channel's score raised for one word in error (R151). -/
def scoreChan (x : Chan) (bad : Bool) : Chan :=
  if bad then { x with score := satTo 16 (x.score + 64), ue := satInc 8 x.ue }
  else { x with score := satInc 16 x.score }

/-- The score of the channel that serves address `a` raised for one word in error. -/
def scoreWord (m : Memory) (a : Nat) (bad : Bool) : Memory :=
  let c := physChan m (chanOf a)
  { m with chans := put {} m.chans c (scoreChan (look {} m.chans c) bad) }

/-- Scores raised for every word found in error. -/
def scoreHits (m : Memory) (hits : List (Nat × Bool)) : Memory :=
  hits.foldl (fun m h => scoreWord m h.1 h.2) m

/-- Words found in error on a read: the scores of their channels, and the corrected words of the window
(R151; 12 R404). -/
def noteErrors (s : State) (m : Memory) (hits : List (Nat × Bool)) : State :=
  let m := scoreHits m hits
  let n := (hits.filter fun h => !h.2).length
  { s with memory := { m with ceWin := if n = 0 then m.ceWin else m.ceWin.add (now s) n } }

/-- An entry of the poison log (R159). -/
def logPoison (m : Memory) (a kind step : Nat) : Memory :=
  if m.poison.length < 64 then
    { m with poison := m.poison ++ [{ addr := a, kind := kind, step := step }] }
  else { m with overflow := true }

end Sys2Proof.Machine
end

