-- ==== Sys2Proof/Machine/PressOps.lean ====
section
/-! DEFINITION. The press and the VMP of one core: tiles, streams, the accumulators and their drains (02 R47 to R53; 03 R69 to R89, R510). -/

namespace Sys2Proof.Machine

open Sys2Proof

/-! ### Where tiles and accumulator words stand -/

def activeTile (a : Nat) : Nat := 2 * a
def shadowTile (a : Nat) : Nat := 2 * a + 1
def accCols : Nat := 2048
def vaccCols : Nat := 256

/-- The key of row `i` of array `a`, column `col`, in an accumulator `width` columns wide. -/
def accKey (width a i col : Nat) : Nat := (8 * a + i) * width + col

/-- The arrays of a 4-bit array mask, ascending. -/
def arraysOf (m : Nat) : List Nat := (List.range 4).filter fun a => m.testBit a

/-- A core's tiles exchanged, shadow for active, in the arrays listed (R74). -/
def swapTiles (m : FMap Tile) : List Nat → FMap Tile
  | [] => m
  | a :: as =>
    let t := look {} m (activeTile a)
    let u := look {} m (shadowTile a)
    swapTiles (put {} (put {} m (activeTile a) u) (shadowTile a) t) as

/-! ### Loading tiles (R71 to R73, R88) -/

/-- One tile row: its element codes and scale bytes, from KSEG segments of the plate row. Elements and
scales of a row are checked together (R131). -/
def loadRow (x : Ex) (fmt kseg eoff soff : Nat) : Except Flt (List Nat × List Nat × Ex) :=
  match classOf fmt with
  | none => .ok ([], [], x)
  | some k =>
    let n := kseg * classSeg k
    let w := elemWidth (fmtElem fmt)
    let eb := n * w / 8
    let sb := if fmtMx fmt then n / 32 else 0
    let acc := (eoff, eb, false) :: (if sb = 0 then [] else [(soff, sb, false)])
    match checkAll x.core.tags ownPress acc with
    | some f => .error (f.after x.ce)
    | none =>
      match plateFetch x eoff eb with
      | .error f => .error f
      | .ok (es, x) =>
        match plateFetch x soff sb with
        | .error f => .error f
        | .ok (ss, x) => .ok (unpackElems w n es, ss.map (·.toNat), x)

/-- Rows `i` to 7 of a tile. -/
def loadRows (x : Ex) (fmt kseg : Nat) (eoff soff : Nat → Nat) :
    List Nat → Except Flt (List (List Nat) × List (List Nat) × Ex)
  | [] => .ok ([], [], x)
  | i :: is =>
    match loadRow x fmt kseg (eoff i) (soff i) with
    | .error f => .error f
    | .ok (es, ss, x) =>
      match loadRows x fmt kseg eoff soff is with
      | .error f => .error f
      | .ok (ess, sss, x) => .ok (es :: ess, ss :: sss, x)

/-- The operands of a tile load. -/
structure TileLoad where
  fmt    : Nat
  kseg   : Nat
  elem   : Nat
  row    : Nat
  scale  : Nat
  srow   : Nat
  mask   : Nat
  deriving DecidableEq, Repr

/-- The operands of LOAD_TILE and VMP_LOAD from the word and the base registers. -/
def tileLoad (c : Core) (w : Nat) : TileLoad :=
  let bt := (baseOf c (bits w 32 29)).toNat
  { fmt := bits w 48 44, kseg := bits w 43 41 + 1
    elem := (baseOf c (bits w 40 37)).toNat, row := bits bt 24 0
    scale := (baseOf c (bits w 36 33)).toNat, srow := bits bt 56 32
    mask := (maskOf c (predOf w)).toNat }

/-- One tile read from the plate. -/
def readTile (x : Ex) (o : TileLoad) (a : Nat) : Except Flt (Tile × Ex) :=
  match loadRows x o.fmt o.kseg (fun i => o.elem + (8 * a + i) * o.row)
      (fun i => o.scale + (8 * a + i) * o.srow) (List.range 8) with
  | .error f => .error f
  | .ok (es, ss, x) =>
    .ok ({ loaded := true, fmt := BitVec.ofNat 5 o.fmt, kseg := o.kseg,
           mask := BitVec.ofNat 8 (o.mask >>> (8 * a)), elems := es, scales := ss }, x)

/-- The shadow tiles of the arrays listed, loaded. -/
def loadTiles (x : Ex) (o : TileLoad) : List Nat → Except Flt Ex
  | [] => .ok x
  | a :: as =>
    match readTile x o a with
    | .error f => .error f
    | .ok (t, x) =>
      loadTiles { x with core := { x.core with tiles := put {} x.core.tiles (shadowTile a) t } } o as

/-- LOAD_TILE executed (R71). -/
def runLoadTile (x : Ex) (w : Nat) : Except Flt Ex :=
  loadTiles x (tileLoad x.core w) (arraysOf (bits w 52 49))

/-- VMP_LOAD executed (R88). -/
def runVmpLoad (x : Ex) (w : Nat) : Except Flt Ex :=
  match readTile x (tileLoad x.core w) 0 with
  | .error f => .error f
  | .ok (t, x) => .ok { x with core := { x.core with vtiles := put {} x.core.vtiles 1 t } }

/-! ### Product groups (R47 to R51) -/

/-- The values of element codes under their scale bytes, one for each 32 elements. -/
def operandValues (fmt : Nat) (codes scales : List Nat) : List FVal :=
  codes.zipIdx.map fun p =>
    if fmtMx fmt then decodeMx (fmtElem fmt) p.1 (nth 0 scales (p.2 / 32))
    else decodeElem (fmtElem fmt) p.1

/-- The exact sum of the products of a group, with INV for Inf × 0 and for infinities of both signs. -/
def dotProduct : List FVal → List FVal → FVal × Word
  | a :: as, b :: bs =>
    let (p, f) := a.mul b
    let (r, g) := dotProduct as bs
    let (t, h) := p.add r
    (t, f ||| g ||| h)
  | _, _ => (.fin false 0 0, 0#32)

/-- A group value (R47, R49, R50) and its flags. DESIGN CHOICE (log 101): a group with a NaN element sets NANIN alone,
whatever its other products. -/
def groupValue (xs ws : List FVal) : FVal × Word :=
  if xs.any FVal.isNan || ws.any FVal.isNan then (.nan, fNANIN)
  else
    let (v, f) := dotProduct xs ws
    (if v.isZero then .fin false 0 0 else v, f)

/-- An exact integer value as a 32-bit word. -/
def intWord : FVal → Word
  | .fin n m e => BitVec.ofInt 32 (shiftedInt n m e 0)
  | _ => 0#32

/-- One addition of a cell: FP32 with RNE, or saturating INT32 in the INT8 class (R48, R51). -/
def cellAdd (k : OpClass) (acc : Word) (g : FVal) : Word × Word :=
  if k = .int8 then iAdd acc (intWord g)
  else
    let (v, f) := (fp acc).add g
    fpResult 0 false 0 v f

/-- Groups added in ascending K (R48, R52). -/
def addGroups (k : OpClass) (acc : Word) : List (List FVal) → List (List FVal) → Word × Word
  | x :: xs, w :: ws =>
    let (v, f) := groupValue x w
    let (a, g) := cellAdd k acc v
    let (r, h) := addGroups k a xs ws
    (r, f ||| g ||| h)
  | _, _ => (acc, 0#32)

/-! ### The stream image (R75, R76) -/

/-- Bytes of a segment's elements, and of a slot. -/
def segBytes (k : OpClass) (fmt : Nat) : Nat := classSeg k * elemWidth (fmtElem fmt) / 8
def slotBytes (k : OpClass) (fmt : Nat) : Nat := segBytes k fmt + (if fmtMx fmt then 8 else 0)

/-- Where segment `j` of column `n` starts in an image (R75). -/
def slotOffset (base pitch slot n j : Nat) : Nat := base + (n + j) * pitch + j * slot

/-- The product groups of one slot of the image. -/
def slotGroups (m : Mem) (k : OpClass) (fmt off : Nat) : List (List FVal) :=
  let bs := memGet m off (slotBytes k fmt)
  let es := unpackElems (elemWidth (fmtElem fmt)) (classSeg k) bs
  let ss := (bs.drop (segBytes k fmt)).map (·.toNat)
  chunks (classGroup k) (classGroups k) (operandValues fmt es ss)

/-- The groups of column `n`, segments 0 to `kseg − 1`. -/
def columnGroups (m : Mem) (k : OpClass) (fmt base pitch kseg n : Nat) : List (List FVal) :=
  (List.range kseg).flatMap fun j =>
    slotGroups m k fmt (slotOffset base pitch (slotBytes k fmt) n j)

/-! ### Streams (R77 to R80, R88, R89, R510) -/

/-- A stream's operands. -/
structure Stream where
  base  : Nat
  n     : Nat
  a0    : Nat
  fmt   : Nat
  fresh  : Bool
  swap  : Bool
  deriving DecidableEq, Repr

def pressStream (c : Core) (w : Nat) : Stream :=
  { base := (baseOf c (bits w 52 49)).toNat, n := bits w 48 38 + 1, a0 := bits w 37 27
    fmt := bits w 26 22, fresh := bit w 21, swap := bit w 20 }

def vmpStream (c : Core) (w : Nat) : Stream :=
  { base := (baseOf c (bits w 52 49)).toNat, n := bits w 48 41 + 1, a0 := bits w 40 33
    fmt := bits w 32 28, fresh := bit w 27, swap := bit w 26 }

/-- The tiles a STREAM uses, after any SWAP (R510). -/
def pressTiles (c : Core) (swap : Bool) : List Tile :=
  (List.range 4).map fun a => look {} c.tiles (if swap then shadowTile a else activeTile a)
def vmpTiles (c : Core) (swap : Bool) : List Tile := [look {} c.vtiles (if swap then 1 else 0)]

/-- The weight format pairs with the input format of every loaded tile (R46, R77). -/
def pairsOk (fmt : Nat) (ts : List Tile) : Bool :=
  (ts.filter (·.loaded)).all fun t =>
    (classOf fmt).isSome && classOf t.fmt.toNat == classOf fmt

/-- The greatest KSEG of the loaded tiles; 0 where all are empty (R510). -/
def streamKseg (ts : List Tile) : Nat :=
  (ts.filter (·.loaded)).foldl (fun k t => max k t.kseg) 0

/-- Row `i` of tile `t` is active. -/
def rowActive (t : Tile) (i : Nat) : Bool := t.loaded && t.mask.getLsbD i

/-- The groups of row `i` of a tile. -/
def rowGroups (k : OpClass) (t : Tile) (i : Nat) : List (List FVal) :=
  chunks (classGroup k) (t.kseg * classGroups k)
    (operandValues t.fmt.toNat (nth [] t.elems i) (nth [] t.scales i))

/-- The accumulator word of one row and column after the stream, and the flags (R73, R78). -/
def streamWord (k : OpClass) (fresh : Bool) (t : Tile) (i : Nat) (rows : List (List FVal))
    (col : List (List FVal)) (old : Word) : Word × Word :=
  let start := if fresh then 0#32 else old
  if rowActive t i then addGroups k start rows (col.take (t.kseg * classGroups k))
  else (start, 0#32)

/-- One row of one array over columns `n` on. -/
def streamRow (k : OpClass) (width a0 : Nat) (fresh : Bool) (a : Nat) (t : Tile) (i : Nat)
    (rows : List (List FVal)) (acc : FMap Word) : Nat → List (List (List FVal)) → FMap Word × Word
  | _, [] => (acc, 0#32)
  | n, col :: cols =>
    let key := accKey width a i (a0 + n)
    let (v, f) := streamWord k fresh t i rows col (look 0 acc key)
    let (acc, g) := streamRow k width a0 fresh a t i rows (put 0 acc key v) (n + 1) cols
    (acc, f ||| g)

/-- Rows listed of one array. -/
def streamArray (k : OpClass) (width a0 : Nat) (fresh : Bool) (a : Nat) (t : Tile) (acc : FMap Word)
    (cols : List (List (List FVal))) : List Nat → FMap Word × Word
  | [] => (acc, 0#32)
  | i :: is =>
    let rows := if rowActive t i then rowGroups k t i else []
    let (acc, f) := streamRow k width a0 fresh a t i rows acc 0 cols
    let (acc, g) := streamArray k width a0 fresh a t acc cols is
    (acc, f ||| g)

/-- Every array, from array `a` on. -/
def streamArrays (k : OpClass) (width a0 : Nat) (fresh : Bool) (acc : FMap Word)
    (cols : List (List (List FVal))) : Nat → List Tile → FMap Word × Word
  | _, [] => (acc, 0#32)
  | a, t :: ts =>
    let (acc, f) := streamArray k width a0 fresh a t acc cols (List.range 8)
    let (acc, g) := streamArrays k width a0 fresh acc cols (a + 1) ts
    (acc, f ||| g)

/-- The words a stream leaves in an accumulator, and its flags. -/
def streamAcc (m : Mem) (o : Stream) (ts : List Tile) (width : Nat) (acc : FMap Word) :
    FMap Word × Word :=
  let k := (classOf o.fmt).getD .fp8
  let kseg := streamKseg ts
  let pitch := kseg * slotBytes k o.fmt
  let cols := (List.range o.n).map fun n => columnGroups m k o.fmt o.base pitch kseg n
  streamArrays k width o.a0 o.fresh acc cols 0 ts

/-- The lines of the press's image, pad slots among them, read from the plate (R79). -/
def readImage (x : Ex) (o : Stream) (ts : List Tile) : Except Flt Ex :=
  if streamKseg ts = 0 then .ok x
  else
    let k := (classOf o.fmt).getD .fp8
    let kseg := streamKseg ts
    match plateRead x ownPress o.base ((o.n + kseg - 1) * (kseg * slotBytes k o.fmt)) with
    | .error f => .error f
    | .ok (_, x) => .ok x

/-- Slots read one by one. -/
def readSlots (x : Ex) (slot : Nat) : List Nat → Except Flt Ex
  | [] => .ok x
  | off :: offs =>
    match plateFetch x off slot with
    | .error f => .error f
    | .ok (_, x) => readSlots x slot offs

/-- The slots of the VMP's image, pad slots never (R89). Every frame of the image holds a slot that is
read, so the access check covers the whole image; its offset can be that of a pad slot (log 82). -/
def readVmpImage (x : Ex) (o : Stream) (ts : List Tile) : Except Flt Ex :=
  if streamKseg ts = 0 then .ok x
  else
    let k := (classOf o.fmt).getD .fp8
    let kseg := streamKseg ts
    let slot := slotBytes k o.fmt
    match checkPlate x.core.tags ownPress o.base ((o.n + kseg - 1) * (kseg * slot)) false with
    | some f => .error f
    | none => readSlots x slot ((List.range o.n).flatMap fun n =>
        (List.range kseg).map fun j => slotOffset o.base (kseg * slot) slot n j)

/-- STREAM executed. -/
def runStream (x : Ex) (w : Nat) : Except Flt Ex :=
  let o := pressStream x.core w
  let ts := pressTiles x.core o.swap
  match readImage x o ts with
  | .error f => .error f
  | .ok x =>
    let (acc, fl) := streamAcc x.core.plate o ts accCols x.core.acc
    let tiles := if o.swap then swapTiles x.core.tiles [0, 1, 2, 3] else x.core.tiles
    .ok { x with core := raise { x.core with acc := acc, tiles := tiles } fPRESS fl }

/-- VMP_STREAM executed. -/
def runVmpStream (x : Ex) (w : Nat) : Except Flt Ex :=
  let o := vmpStream x.core w
  let ts := vmpTiles x.core o.swap
  match readVmpImage x o ts with
  | .error f => .error f
  | .ok x =>
    let (acc, fl) := streamAcc x.core.plate o ts vaccCols x.core.vacc
    let tiles := if o.swap then swapTiles x.core.vtiles [0] else x.core.vtiles
    .ok { x with core := raise { x.core with vacc := acc, vtiles := tiles } fPRESS fl }

/-! ### Drains and clears (R81, R82, R88) -/

/-- The words a drain writes: arrays ascending, rows 0 to 7, columns ascending. -/
def drainWords (acc : FMap Word) (width c0 n : Nat) (as : List Nat) : List Word :=
  as.flatMap fun a => (List.range 8).flatMap fun i => lookList 0 acc (accKey width a i c0) n

/-- Columns `c0` to `c0 + n − 1` of the arrays listed, cleared. -/
def clearCols (acc : FMap Word) (width c0 n : Nat) (as : List Nat) : FMap Word :=
  (as.flatMap fun a => (List.range 8).map fun i => accKey width a i c0).foldl
    (fun m k => dropRange m k (k + n)) acc

/-- The column range of a drain or clear, and its destination. -/
def drainC0 (w : Nat) : Nat := bits w 48 38
def drainN (w : Nat) : Nat := bits w 37 27 + 1
def drainDest (c : Core) (w : Nat) : Nat := (baseOf c (bits w 26 23)).toNat

/-- The bytes of 32-bit words. -/
def word32Bytes (ws : List Word) : List Byte := ws.flatMap fun v => leBytes 4 v.toNat

/-- DRAIN executed: one write of the whole block, so a word that two rows share is no partial write (log 82). -/
def runDrain (x : Ex) (w : Nat) : Except Flt Ex :=
  let as := arraysOf (bits w 52 49)
  let bs := word32Bytes (drainWords x.core.acc accCols (drainC0 w) (drainN w) as)
  if bs.length = 0 then .ok x
  else match plateWrite x ownPress (drainDest x.core w) bs with
    | .error f => .error f
    | .ok x =>
      let acc := if bit w 22 then clearCols x.core.acc accCols (drainC0 w) (drainN w) as
        else x.core.acc
      .ok { x with core := { x.core with acc := acc } }

/-- VMP_DRAIN executed. -/
def runVmpDrain (x : Ex) (w : Nat) : Except Flt Ex :=
  let bs := word32Bytes (drainWords x.core.vacc vaccCols (drainC0 w) (drainN w) [0])
  match plateWrite x ownPress (drainDest x.core w) bs with
  | .error f => .error f
  | .ok x =>
    let acc := if bit w 22 then clearCols x.core.vacc vaccCols (drainC0 w) (drainN w) [0]
      else x.core.vacc
    .ok { x with core := { x.core with vacc := acc } }

/-- ACC_CLEAR executed. -/
def runAccClear (x : Ex) (w : Nat) : Except Flt Ex :=
  .ok { x with core := { x.core with
    acc := clearCols x.core.acc accCols (drainC0 w) (drainN w) (arraysOf (bits w 52 49)) } }

/-- VMP_CLEAR executed. -/
def runVmpClear (x : Ex) (w : Nat) : Except Flt Ex :=
  .ok { x with core := { x.core with
    vacc := clearCols x.core.vacc vaccCols (drainC0 w) (drainN w) [0] } }

/-! ### Checks at issue (R77, R88, R102, R135) -/

/-- A tile load's strides and alignment: bits of BT outside the two strides must be zero. -/
def tileAligned (c : Core) (w : Nat) : Bool :=
  let bt := (baseOf c (bits w 32 29)).toNat
  bits bt 31 25 == 0 && bits bt 63 57 == 0 && bits bt 24 0 % 8 == 0 &&
    (baseOf c (bits w 40 37)).toNat % 8 == 0

/-- What a PRESS or VMP instruction must meet at issue besides its fields. -/
def pressIssueOk (c : Core) (w : Nat) : Bool :=
  match opOf w with
  | 0x00 => tileAligned c w
  | 0x08 => tileAligned c w
  | 0x01 =>
    let o := pressStream c w
    o.base % 64 == 0 && pairsOk o.fmt (pressTiles c o.swap)
  | 0x09 =>
    let o := vmpStream c w
    o.base % 64 == 0 && pairsOk o.fmt (vmpTiles c o.swap)
  | 0x02 => drainDest c w % 64 == 0
  | 0x0A => drainDest c w % 64 == 0
  | _ => true

/-- The declared tokens of a draw code (R216). -/
def codeTokens (draw : Nat) : Nat :=
  drawTokens (draw % 4) + (if draw.testBit 2 then 3 else 0) + (if draw.testBit 3 then 2 else 0)

/-- The press draw code that an instruction needs: the class of its format, or the least (R219). -/
def pressNeed (w : Nat) : Nat :=
  match opOf w with
  | 0x00 => match classOf (bits w 48 44) with | some k => classDraw k | none => 1
  | 0x01 => match classOf (bits w 26 22) with | some k => classDraw k | none => 0
  | _ => 1

/-- The unit class and the tokens that an instruction adds beyond a core's draw code (R219). -/
def overdraw (draw w : Nat) : Option (Nat × Nat) :=
  let press := draw % 4
  if opOf w < 0x08 then
    if press = 0 then some (1, drawTokens (pressNeed w))
    else if opOf w = 0x01 ∧ press < pressNeed w then
      some (1, drawTokens (pressNeed w) - drawTokens press)
    else none
  else if opOf w < 0x10 then if draw.testBit 2 then none else some (2, 3)
  else if opOf w < 0x18 then if draw.testBit 3 then none else some (3, 2)
  else none

end Sys2Proof.Machine
end

