-- ==== Sys2Proof/Machine/Functions.lean ====
section
/-! DEFINITION. The vector unit's functions EXP2, LOG2, RECIP, RSQRT, SQRT and TANH by the fixed algorithms of 02, R64. -/

namespace Sys2Proof.Machine

open Sys2Proof

/-! ### Steps and constants -/

/-- One FP32 step of a function: RNE, its flags not counted (R64). -/
def stAdd (a b : Word) : Word := (fpAdd 0 false 0 a b).1
def stMul (a b : Word) : Word := (fpMul 0 false 0 a b).1
def stFma (a b c : Word) : Word := (fpFma 0 false 0 a b c).1
def stNeg (a : Word) : Word := a ^^^ 0x80000000#32

def fpOne : Word := 0x3F800000#32
def fpInf : Word := 0x7F800000#32
def fpNaN : Word := 0x7FC00000#32

/-- The integer square root by digit recurrence: `k` more bits of the root of `n`, from `r`. -/
def isqrtFrom (n : Nat) : Nat → Nat → Nat
  | 0, r => r
  | k + 1, r =>
    let t := r + 2 ^ k
    isqrtFrom n k (if t * t ≤ n then t else r)

/-- The integer square root of a number below 2^(2k). -/
def isqrt (k n : Nat) : Nat := isqrtFrom n k 0

/-- The FP32 value nearest to a positive rational (RNE32): 64 quotient bits and a sticky bit. -/
def ratFp (n d : Nat) : Word :=
  let q := (n <<< 64) / d
  let sticky := if (n <<< 64) % d = 0 then 0 else 1
  (rne32 (.fin false (2 * q + sticky) (-65))).1

/-- Horner's rule, one FMA per step, from the highest coefficient (R64). -/
def horner (x : Word) (acc : Word) : List Word → Word
  | [] => acc
  | c :: cs => horner x (stFma acc x c) cs

/-- The exact product of an FP32 value and 2^k, rounded once, with its sign inverted if `neg`. -/
def scaleBy (y : Word) (k : Int) (neg : Bool) : Word × Word :=
  let v := (fp y).scale k
  rne32 (if neg then v.neg else v)

/-- |x| = 2^e · m with m in [1, 2) for a finite x that is not zero: e and the 24-bit significand. -/
def splitFp (x : Word) : Int × Nat :=
  match fp x with
  | .fin _ m e =>
    let t := Nat.log2 m
    ((t : Int) + e, m <<< (23 - t))
  | _ => (0, 2 ^ 23)

/-- The FP32 word of a 24-bit significand times 2^k, for m in [1, 2) and k of 0 or 1. -/
def sigWord (m24 k : Nat) : Word := BitVec.ofNat 32 ((127 + k) <<< 23 + (m24 - 2 ^ 23))

/-! ### EXP2 -/

/-- RNE32(ln2^k / k!) for k = 5 down to 1, and c_0 = 1. -/
def exp2Coeffs : List Word :=
  [0x3AAEC3FF#32, 0x3C1D955B#32, 0x3D635847#32, 0x3E75FDF0#32, 0x3F317218#32, fpOne]

def fnExp2 (x : Word) : Word × Word :=
  match fp x with
  | .nan => (fpNaN, 0#32)
  | .inf n => if n then (0#32, 0#32) else (fpInf, 0#32)
  | v =>
    if !v.sign && decide (0x43000000 ≤ x.toNat) then (fpInf, fOF ||| fNX)
    else if v.sign && decide (0xC3160000 < x.toNat) then (0#32, fUF ||| fNX)
    else
      let n := signedOf 32 (toInt 32 0 0 v).1
      let f := (rne32 (v.add (.ofInt (-n) 0)).1).1
      scaleBy (horner f 0x39218489#32 exp2Coeffs) n false

/-! ### LOG2 -/

/-- RNE32(log2 c_i) for i = 0 to 31. -/
def log2Table0 : List Word :=
  [0x3BB84E23#32, 0x3C89B189#32, 0x3CE49B1E#32, 0x3D1F6985#32, 0x3D4C2DFE#32, 0x3D789C4C#32, 0x3D925ADC#32, 0x3DA83DC2#32] ++
  [0x3DBDF775#32, 0x3DD3888F#32, 0x3DE8F1A7#32, 0x3DFE3350#32, 0x3E09A70E#32, 0x3E14214A#32, 0x3E1E88A3#32, 0x3E28DD5D#32] ++
  [0x3E331FB8#32, 0x3E3D4FF6#32, 0x3E476E57#32, 0x3E517B19#32, 0x3E5B7679#32, 0x3E6560B2#32, 0x3E6F39FF#32, 0x3E79029A#32] ++
  [0x3E815D5D#32, 0x3E86314C#32, 0x3E8AFD34#32, 0x3E8FC130#32, 0x3E947D5A#32, 0x3E9931CB#32, 0x3E9DDE9D#32, 0x3EA283E8#32]

/-- RNE32(log2 c_i) for i = 32 to 63. -/
def log2Table1 : List Word :=
  [0x3EA721C4#32, 0x3EABB849#32, 0x3EB0478E#32, 0x3EB4CFA9#32, 0x3EB950B2#32, 0x3EBDCABD#32, 0x3EC23DE2#32, 0x3EC6AA34#32] ++
  [0x3ECB0FC8#32, 0x3ECF6EB4#32, 0x3ED3C70A#32, 0x3ED818DF#32, 0x3EDC6447#32, 0x3EE0A953#32, 0x3EE4E818#32, 0x3EE920A6#32] ++
  [0x3EED5311#32, 0x3EF17F6A#32, 0x3EF5A5C2#32, 0x3EF9C62B#32, 0x3EFDE0B6#32, 0x3F00FAB9#32, 0x3F030239#32, 0x3F0506E2#32] ++
  [0x3F0708BC#32, 0x3F0907CF#32, 0x3F0B0422#32, 0x3F0CFDBE#32, 0x3F0EF4A9#32, 0x3F10E8EB#32, 0x3F12DA8B#32, 0x3F14C990#32]

/-- RNE32(log2 c_i) for i = 64 to 95. -/
def log2Table2 : List Word :=
  [0x3F16B601#32, 0x3F189FE4#32, 0x3F1A8742#32, 0x3F1C6C1F#32, 0x3F1E4E83#32, 0x3F202E74#32, 0x3F220BF9#32, 0x3F23E718#32] ++
  [0x3F25BFD6#32, 0x3F27963A#32, 0x3F296A4A#32, 0x3F2B3C0C#32, 0x3F2D0B85#32, 0x3F2ED8BC#32, 0x3F30A3B5#32, 0x3F326C77#32] ++
  [0x3F343306#32, 0x3F35F769#32, 0x3F37B9A4#32, 0x3F3979BD#32, 0x3F3B37B9#32, 0x3F3CF39D#32, 0x3F3EAD6E#32, 0x3F406531#32] ++
  [0x3F421AEB#32, 0x3F43CEA0#32, 0x3F458055#32, 0x3F473010#32, 0x3F48DDD4#32, 0x3F4A89A7#32, 0x3F4C338C#32, 0x3F4DDB88#32]

/-- RNE32(log2 c_i) for i = 96 to 127. -/
def log2Table3 : List Word :=
  [0x3F4F819F#32, 0x3F5125D7#32, 0x3F52C832#32, 0x3F5468B6#32, 0x3F560765#32, 0x3F57A446#32, 0x3F593F5A#32, 0x3F5AD8A8#32] ++
  [0x3F5C7031#32, 0x3F5E05FB#32, 0x3F5F9A09#32, 0x3F612C5E#32, 0x3F62BCFF#32, 0x3F644BF0#32, 0x3F65D933#32, 0x3F6764CD#32] ++
  [0x3F68EEC1#32, 0x3F6A7712#32, 0x3F6BFDC5#32, 0x3F6D82DB#32, 0x3F6F065A#32, 0x3F708843#32, 0x3F72089B#32, 0x3F738765#32] ++
  [0x3F7504A4#32, 0x3F76805A#32, 0x3F77FA8C#32, 0x3F79733C#32, 0x3F7AEA6D#32, 0x3F7C6023#32, 0x3F7DD460#32, 0x3F7F4728#32]

/-- RNE32(log2 c_i). -/
def log2Entry (i : Nat) : Word :=
  nth 0#32 (match i / 32 with
    | 0 => log2Table0
    | 1 => log2Table1
    | 2 => log2Table2
    | _ => log2Table3) (i % 32)

/-- (−1)^(k+1) RNE32(1/(k ln2)) for k = 3 down to 1, and no constant term. -/
def log2Coeffs : List Word := [0x3EF6384F#32, 0xBF38AA3B#32, 0x3FB8AA3B#32, 0#32]

def fnLog2 (x : Word) : Word × Word :=
  match fp x with
  | .nan => (fpNaN, 0#32)
  | .inf n => if n then (fpNaN, fINV) else (fpInf, 0#32)
  | v =>
    if v.isZero then (0xFF800000#32, fDZ)
    else if v.sign then (fpNaN, fINV)
    else if x = fpOne then (0#32, 0#32)
    else
      let (e, m24) := splitFp x
      let i := (m24 >>> 16) % 128
      let c := ratFp (257 + 2 * i) 256
      let r := stMul (stAdd (sigWord m24 0) (stNeg c)) (ratFp 256 (257 + 2 * i))
      let p := horner r 0xBEB8AA3B#32 log2Coeffs
      fpAdd 0 false 0 (rne32 (.ofInt e 0)).1 (stAdd (log2Entry i) p)

/-! ### RECIP and RSQRT -/

/-- The nearest multiple of 2^-11 of a seed in (0.5, 1), as FP32. -/
def seedWord (k : Nat) : Word := (rne32 (.fin false k (-11))).1

/-- Seed 1 / (1 + (i + 0.5)/256) = 512 / (513 + 2i) to 10 fraction bits of its significand. -/
def recipSeed (i : Nat) : Word :=
  let d := 513 + 2 * i
  let n := 512 * 2048
  seedWord (if d < 2 * (n % d) then n / d + 1 else n / d)

/-- Seed 1 / √(1 + (i + 0.5)/128): the nearest integer to √(2^30 / (257 + 2i)). -/
def rsqrtSeed (i : Nat) : Word :=
  let d := 257 + 2 * i
  let k := isqrt 11 (2 ^ 30 / d)
  seedWord (if (2 * k + 1) * (2 * k + 1) * d < 2 ^ 32 then k + 1 else k)

/-- One step of d = fma(−m, y, 1), y = fma(y, d, y). -/
def recipStep (m y : Word) : Word := stFma y (stFma (stNeg m) y fpOne) y

def fnRecip (x : Word) : Word × Word :=
  match fp x with
  | .nan => (fpNaN, 0#32)
  | .inf n => (if n then 0x80000000#32 else 0#32, 0#32)
  | v =>
    if v.isZero then (if v.sign then 0xFF800000#32 else fpInf, fDZ)
    else
      let (e, m24) := splitFp x
      let m := sigWord m24 0
      let y := recipStep m (recipStep m (recipSeed ((m24 >>> 15) % 256)))
      scaleBy y (-e) v.sign

/-- One step of h = m × y, d = fma(−h, y, 1), y = fma(0.5 × y, d, y). -/
def rsqrtStep (m y : Word) : Word :=
  stFma (stMul 0x3F000000#32 y) (stFma (stNeg (stMul m y)) y fpOne) y

def fnRsqrt (x : Word) : Word × Word :=
  match fp x with
  | .nan => (fpNaN, 0#32)
  | .inf n => if n then (fpNaN, fINV) else (0#32, 0#32)
  | v =>
    if v.isZero then (if v.sign then 0xFF800000#32 else fpInf, fDZ)
    else if v.sign then (fpNaN, fINV)
    else
      let (e, m24) := splitFp x
      let odd := (e % 2).toNat
      let m := sigWord m24 odd
      let i := ((m24 <<< odd) - 2 ^ 23) >>> 16
      let y := rsqrtStep m (rsqrtStep m (rsqrtStep m (rsqrtSeed i)))
      scaleBy y (-((e - (odd : Int)) / 2)) false

/-! ### SQRT -/

def fnSqrt (x : Word) : Word × Word :=
  match fp x with
  | .nan => (fpNaN, 0#32)
  | .inf n => if n then (fpNaN, fINV) else (fpInf, 0#32)
  | .fin n m e =>
    if m = 0 then (x, 0#32)
    else if n then (fpNaN, fINV)
    else
      let odd := (e % 2).toNat
      let a := (m <<< odd) <<< 64
      let r := isqrt 45 a
      let sticky := if r * r = a then 0 else 1
      rne32 (.fin false (2 * r + sticky) ((e - (odd : Int) - 64) / 2 - 1))

/-! ### TANH -/

/-- RNE32 of −17/315, 2/15 and −1/3, which follow the coefficient 62/2835. -/
def tanhCoeffs : List Word := [0xBD5D0DD1#32, 0x3E088889#32, 0xBEAAAAAB#32]

def fnTanh (x : Word) : Word × Word :=
  match fp x with
  | .nan => (fpNaN, 0#32)
  | .inf n => (if n then 0xBF800000#32 else fpOne, 0#32)
  | v =>
    let a := x &&& 0x7FFFFFFF#32
    if a.toNat < 0x39800000 then (x, 0#32)
    else if a.toNat < 0x3E800000 then
      let z := stMul x x
      fpFma 0 false 0 (stMul z x) (horner z 0x3CB327A4#32 tanhCoeffs) x
    else if a.toNat < 0x41120000 then
      let b := stMul (stMul 0x40000000#32 a) 0x3FB8AA3B#32
      let q := (fnRecip (stAdd (fnExp2 b).1 fpOne)).1
      let (r, fl) := fpFma 0 false 0 0xC0000000#32 q fpOne
      (if v.sign then stNeg r else r, fl)
    else (if v.sign then 0xBF800000#32 else fpOne, 0#32)

/-- Function `fn` of VFN, codes 0 to 5. -/
def vfnFunction (fn : Nat) (x : Word) : Word × Word :=
  match fn with
  | 0 => fnExp2 x
  | 1 => fnLog2 x
  | 2 => fnRecip x
  | 3 => fnRsqrt x
  | 4 => fnSqrt x
  | _ => fnTanh x

end Sys2Proof.Machine
end

