-- ==== Sys2Proof/Machine/VecOps.lean ====
section
/-! DEFINITION. The vector unit of one core (02 R57 to R65; 04 R101 to R108). -/

namespace Sys2Proof.Machine

open Sys2Proof

/-! ### Operands -/

/-- The element address of VLD, VST and VSYS: B[BA] + OFS (R101), modulo 2^64 (log 82). -/
def vecAddr (c : Core) (w : Nat) : Nat :=
  ((baseOf c (bits w 47 44)).toNat + bits w 39 24) % 2 ^ 64

/-- The MX scale address of VLD and VST. -/
def vecScaleAddr (c : Core) (w : Nat) : Nat := (baseOf c (bits w 43 40)).toNat

/-- Bit `k` of the mask of the instruction. -/
def laneOn (c : Core) (w k : Nat) : Bool := (maskOf c (predOf w)).getLsbD k

/-- The mask as 64 bits. -/
def laneMask (c : Core) (w : Nat) : List Bool := (List.range 64).map fun k => laneOn c w k

/-- Lanes of `new` where the mask is set, else of `old`. -/
def merge (mask : List Bool) (new old : List Word) : List Word :=
  (mask.zip (new.zip old)).map fun p => if p.1 then p.2.1 else p.2.2

/-- The union of the flags of the lanes whose mask is set. -/
def maskedFlags (mask : List Bool) (fl : List Word) : Word :=
  (mask.zip fl).foldl (fun a p => if p.1 then a ||| p.2 else a) 0#32

/-- NANIN where an operand is a NaN. -/
def nanIn (ws : List Word) : Word := fIf (ws.any isNan32) fNANIN

/-- The random words of `n` elements of an instruction whose context and counter base registers are
given, as numbers; zeros where they are not used (R108). -/
def drawWords (c : Core) (on : Bool) (n nrng bc : Nat) : List Nat :=
  if on then (randWords (ctxOf c nrng) (baseOf c bc) n).map (·.toNat) else List.replicate n 0

/-! ### VLD (R103) -/

/-- One element widened to a lane, and its flags. -/
def widen (fmt code scale : Nat) : Word × Word :=
  if fmtMx fmt then
    let v := decodeMx (fmtElem fmt) code scale
    let (r, f) := rne32 v
    (r, f ||| fIf v.isNan fNANIN)
  else match floatFmt (fmtElem fmt) with
    | some f =>
      let v := decodeFloat f code
      let (r, g) := rne32 v
      (r, g ||| fIf v.isNan fNANIN)
    | none => (BitVec.ofInt 32 (signedOf (elemWidth (fmtElem fmt)) code), 0#32)

/-- Element codes widened, with a scale byte for each 32 of them. -/
def widenAll (fmt : Nat) (codes scales : List Nat) : List (Word × Word) :=
  codes.zipIdx.map fun p => widen fmt p.1 (nth 0 scales (p.2 / 32))

/-- VLD executed. -/
def runVld (x : Ex) (w : Nat) : Except Flt Ex :=
  let fmt := bits w 23 19
  let width := elemWidth (fmtElem fmt)
  let off := vecAddr x.core w
  let soff := vecScaleAddr x.core w
  let sb := if fmtMx fmt then 2 else 0
  if off % 8 ≠ 0 then .error (illegal (dw w))
  else match checkAll x.core.tags ownVec
      ((off, 8 * width, false) :: (if sb = 0 then [] else [(soff, sb, false)])) with
    | some f => .error f
    | none => match plateFetch x off (8 * width) with
      | .error f => .error f
      | .ok (es, x) => match plateFetch x soff sb with
        | .error f => .error f
        | .ok (ss, x) =>
          let r := widenAll fmt (unpackElems width 64 es) (ss.map (·.toNat))
          let mask := laneMask x.core w
          let v := bits w 52 48
          let c := setLanes x.core v (merge mask (r.map (·.1)) (lanesOf x.core v))
          .ok { x with core := raise c fVEC (maskedFlags mask (r.map (·.2))) }

/-! ### VST (R104) -/

/-- Words of 8 bytes written under a bit mask, from word `i` on: a word partly covered is read first
(R134); a word of which nothing is covered is left. -/
def storeWords (x : Ex) (off data mask : Nat) : List Nat → Except Flt Ex
  | [] => .ok x
  | i :: is =>
    let m := (mask >>> (64 * i)) % 2 ^ 64
    let d := (data >>> (64 * i)) % 2 ^ 64
    let a := off + 8 * i
    if m = 0 then storeWords x off data mask is
    else if m = 2 ^ 64 - 1 then
      storeWords { x with core := { x.core with plate := memPut x.core.plate a (leBytes 8 d) } }
        off data mask is
    else match plateFetch x a 8 with
      | .error f => .error f
      | .ok (old, x) =>
        let o := leNat old
        let v := (o &&& (2 ^ 64 - 1 - m)) ||| (d &&& m)
        storeWords { x with core := { x.core with plate := memPut x.core.plate a (leBytes 8 v) } }
          off data mask is

/-- The bit mask of the elements whose lanes are on. -/
def elemMask (width : Nat) (mask : List Bool) : Nat :=
  mask.foldr (fun b acc => acc * 2 ^ width + (if b then 2 ^ width - 1 else 0)) 0

/-- The elements packed as one number (R43). -/
def elemBits (width : Nat) (es : List Nat) : Nat :=
  es.foldr (fun e acc => acc * 2 ^ width + e % 2 ^ width) 0

/-- One lane narrowed (R104). -/
def narrow (elem rmode : Nat) (sat : Bool) (rword : Nat) (v : Word) : Nat × Word :=
  if elem = 0 ∨ elem = 9 then (v.toNat, 0#32)
  else if elem = 8 then toInt 8 0 0 (.ofInt v.toInt 0)
  else
    let (c, f) := toElem elem rmode sat rword (fp v)
    (c, f ||| fIf (isNan32 v) fNANIN)

/-- Lanes narrowed with their random words. -/
def narrowAll (elem rmode : Nat) (sat : Bool) (rs : List Nat) (vs : List Word) : List (Nat × Word) :=
  (vs.zip rs).map fun p => narrow elem rmode sat p.2 p.1

/-- VST in a plain format: elements of masked lanes stay. -/
def runVstPlain (x : Ex) (w : Nat) : Except Flt Ex :=
  let elem := fmtElem (bits w 23 19)
  let width := elemWidth elem
  let off := vecAddr x.core w
  let rmode := bits w 17 16
  let rs := drawWords x.core (rmode == 2) 64 (bits w 15 13) (bits w 12 9)
  let r := narrowAll elem rmode (bit w 18) rs (lanesOf x.core (bits w 52 48))
  let mask := laneMask x.core w
  match checkPlate x.core.tags ownVec off (8 * width) true with
  | some f => .error f
  | none => match storeWords x off (elemBits width (r.map (·.1))) (elemMask width mask)
      (List.range width) with
    | .error f => .error f
    | .ok x => .ok { x with core := raise x.core fVEC (maskedFlags mask (r.map (·.2))) }

/-- VST in an MX format: two blocks, their elements and their scales (R57). -/
def runVstMx (x : Ex) (w : Nat) : Except Flt Ex :=
  let elem := fmtElem (bits w 23 19)
  let width := elemWidth elem
  let off := vecAddr x.core w
  let soff := vecScaleAddr x.core w
  let rmode := bits w 17 16
  let rs := drawWords x.core (rmode == 2) 64 (bits w 15 13) (bits w 12 9)
  let vs := lanesOf x.core (bits w 52 48)
  let (s0, e0, f0) := mxBlock elem rmode (rs.take 32) ((vs.take 32).map fp)
  let (s1, e1, f1) := mxBlock elem rmode (rs.drop 32) ((vs.drop 32).map fp)
  match checkAll x.core.tags ownVec [(off, 8 * width, true), (soff, 2, true)] with
  | some f => .error f
  | none => match plateStore x off (packElems width (e0 ++ e1)) with
    | .error f => .error f
    | .ok x => match plateStore x soff [BitVec.ofNat 8 s0, BitVec.ofNat 8 s1] with
      | .error f => .error f
      | .ok x => .ok { x with core := raise x.core fVEC (f0 ||| f1 ||| nanIn vs) }

/-- VST executed. -/
def runVst (x : Ex) (w : Nat) : Except Flt Ex :=
  if vecAddr x.core w % 8 ≠ 0 then .error (illegal (dw w))
  else if fmtMx (bits w 23 19) then runVstMx x w else runVstPlain x w

/-! ### VALU (R61, R62, table of R106) -/

/-- One lane of VALU, with its flags. -/
def valuLane (fn rmode : Nat) (sat : Bool) (r : Nat) (a b c : Word) : Word × Word :=
  match fn with
  | 0 => let (v, f) := fpAdd rmode sat r a b; (v, f ||| nanIn [a, b])
  | 1 => let (v, f) := fpResultSub rmode sat r a b; (v, f ||| nanIn [a, b])
  | 2 => let (v, f) := fpMul rmode sat r a b; (v, f ||| nanIn [a, b])
  | 3 => let (v, f) := fpFma rmode sat r a b c; (v, f ||| nanIn [a, b, c])
  | 4 => (fpMinMax false a b, nanIn [a, b])
  | 5 => (fpMinMax true a b, nanIn [a, b])
  | 6 => (if isNan32 a then fpNaN else a &&& 0x7FFFFFFF#32, 0#32)
  | 7 => (if isNan32 a then fpNaN else a ^^^ 0x80000000#32, 0#32)
  | 8 => (a, 0#32)
  | 9 => iAdd a b
  | 10 => fpResult rmode sat r (.ofInt a.toInt 0) 0#32
  | 11 => let (v, f) := toInt 32 rmode r (fp a); (BitVec.ofNat 32 v, f ||| nanIn [a])
  | _ => let (v, f) := fpScale rmode sat r a b; (v, f ||| nanIn [a])
where
  /-- a − b. -/
  fpResultSub (rmode : Nat) (sat : Bool) (r : Nat) (a b : Word) : Word × Word :=
    let (v, fl) := (fp a).add (fp b).neg
    fpResult rmode sat r v fl

/-- VALU executed. -/
def runValu (x : Ex) (w : Nat) : Except Flt Ex :=
  let c := x.core
  let rmode := bits w 26 25
  let rs := drawWords c (rmode == 2) 64 (bits w 24 22) (bits w 21 18)
  let as := lanesOf c (bits w 47 43)
  let bs := lanesOf c (bits w 42 38)
  let cs := lanesOf c (bits w 37 33)
  let r := (as.zip (bs.zip (cs.zip rs))).map fun p =>
    valuLane (bits w 32 28) rmode (bit w 27) p.2.2.2 p.1 p.2.1 p.2.2.1
  let mask := laneMask c w
  let v := bits w 52 48
  let c' := setLanes c v (merge mask (r.map (·.1)) (lanesOf c v))
  .ok { x with core := raise c' fVEC (maskedFlags mask (r.map (·.2))) }

/-! ### VFN (R64, R106) -/

/-- One lane of VFN. DESIGN CHOICE (log 101): a NaN input of EXP2 to TANH sets NANIN. -/
def vfnLane (fn r : Nat) (a : Word) : Word × Word :=
  match fn with
  | 6 => (BitVec.ofNat 32 r, 0#32)
  | 7 => ((rne32 (.fin false (r / 256) (-24))).1, 0#32)
  | _ => let (v, f) := vfnFunction fn a; (v, f ||| nanIn [a])

/-- VFN executed. -/
def runVfn (x : Ex) (w : Nat) : Except Flt Ex :=
  let c := x.core
  let fn := bits w 32 28
  let rs := drawWords c (decide (6 ≤ fn)) 64 (bits w 24 22) (bits w 21 18)
  let r := ((lanesOf c (bits w 47 43)).zip rs).map fun p => vfnLane fn p.2 p.1
  let mask := laneMask c w
  let v := bits w 52 48
  let c' := setLanes c v (merge mask (r.map (·.1)) (lanesOf c v))
  .ok { x with core := raise c' fVEC (maskedFlags mask (r.map (·.2))) }

/-! ### VRED (R63, R107) -/

/-- One combination of a reduction. -/
def combine (fn rmode : Nat) (sat : Bool) (r : Nat) (a b : Word) : Word × Word :=
  match fn with
  | 0 => fpAdd rmode sat r a b
  | 1 => (fpMinMax true a b, 0#32)
  | _ => (fpMinMax false a b, 0#32)

/-- One level of the tree: pairs combined in order, each with its random word. -/
def treeLevel (fn rmode : Nat) (sat : Bool) : List Word → List Nat → List Word × Word
  | a :: b :: vs, rs =>
    let (v, f) := combine fn rmode sat (rs.headD 0) a b
    let (r, g) := treeLevel fn rmode sat vs rs.tail
    (v :: r, f ||| g)
  | _, _ => ([], 0#32)

/-- The tree: `n` levels over 2^n values, consuming one random word for each combination. -/
def treeReduce (fn rmode : Nat) (sat : Bool) : Nat → List Word → List Nat → Word × Word
  | 0, vs, _ => (vs.headD 0, 0#32)
  | n + 1, vs, rs =>
    let (r, f) := treeLevel fn rmode sat vs rs
    let (v, g) := treeReduce fn rmode sat n r (rs.drop r.length)
    (v, f ||| g)

/-- What a masked lane counts as. -/
def redFill (fn : Nat) : Word :=
  match fn with
  | 0 => 0#32
  | 1 => 0xFF800000#32
  | _ => 0x7F800000#32

/-- VRED executed. -/
def runVred (x : Ex) (w : Nat) : Except Flt Ex :=
  let c := x.core
  let fn := bits w 32 28
  let rmode := bits w 26 25
  let rs := drawWords c (rmode == 2) 63 (bits w 24 22) (bits w 21 18)
  let mask := laneMask c w
  let vs := merge mask (lanesOf c (bits w 47 43)) (List.replicate 64 (redFill fn))
  let (v, f) := treeReduce fn rmode (bit w 27) 6 vs rs
  let d := bits w 52 48
  let c' := if bit w 12 then setLanes c d (List.replicate 64 v)
    else { c with vregs := put 0 c.vregs (64 * d) v }
  .ok { x with core := raise c' fVEC (f ||| nanIn vs) }

/-! ### VMASK and VLANE (R106, R107) -/

/-- Bits as a 64-bit mask, the first the lowest. -/
def maskWord (l : List Bool) : DWord :=
  BitVec.ofNat 64 (l.foldr (fun b acc => 2 * acc + b2n b) 0)

/-- VMASK executed. -/
def runVmask (x : Ex) (w : Nat) : Except Flt Ex :=
  let c := x.core
  let mask := laneMask c w
  let ps := (lanesOf c (bits w 47 43)).zip (lanesOf c (bits w 42 38))
  let r := (mask.zip ps).map fun p => p.1 && fpCmp (bits w 32 28) p.2.1 p.2.2
  let fl := maskedFlags mask (ps.map fun p => nanIn [p.1, p.2])
  .ok { x with core := raise (setMask c (bits w 50 48) (maskWord r)) fVEC fl }

/-- The lanes that VLANE moves. -/
def laneMove (fn imm : Nat) (vs : List Word) : List Word :=
  match fn with
  | 0 => List.replicate 64 (nth 0 vs imm)
  | 1 => (List.replicate imm 0#32 ++ vs).take 64
  | _ => vs.drop imm ++ List.replicate imm 0#32

/-- VLANE executed. -/
def runVlane (x : Ex) (w : Nat) : Except Flt Ex :=
  let c := x.core
  let r := laneMove (bits w 32 28) (bits w 17 12) (lanesOf c (bits w 47 43))
  let v := bits w 52 48
  .ok { x with core := setLanes c v (merge (laneMask c w) r (lanesOf c v)) }

/-! ### VSYS (R105, R127) -/

/-- A plate operand of VSYS: aligned and checked whatever the mask. -/
def sysCheck (x : Ex) (w n : Nat) (write : Bool) : Option Flt :=
  if vecAddr x.core w % 8 ≠ 0 then some (illegal (dw w))
  else checkPlate x.core.tags ownVec (vecAddr x.core w) n write

/-- MLD executed. -/
def runMld (x : Ex) (w : Nat) : Except Flt Ex :=
  match sysCheck x w 8 false with
  | some f => .error f
  | none =>
    if !laneOn x.core w 0 then .ok x
    else match plateFetch x (vecAddr x.core w) 8 with
      | .error f => .error f
      | .ok (bs, x) => .ok { x with core := setMask x.core (bits w 50 48) (dw (leNat bs)) }

/-- NLD executed: the key first, then the stream. -/
def runNld (x : Ex) (w : Nat) : Except Flt Ex :=
  match sysCheck x w 16 false with
  | some f => .error f
  | none =>
    if !laneOn x.core w 0 then .ok x
    else match plateFetch x (vecAddr x.core w) 16 with
      | .error f => .error f
      | .ok (bs, x) =>
        .ok { x with core := { x.core with
          ctx := put 0 x.core.ctx (bits w 50 48) (BitVec.ofNat 128 (leNat bs)) } }

/-- Eight bytes stored by VSYS. -/
def sysStore (x : Ex) (w : Nat) (v : DWord) : Except Flt Ex :=
  match sysCheck x w 8 true with
  | some f => .error f
  | none =>
    if !laneOn x.core w 0 then .ok x
    else plateStore x (vecAddr x.core w) (leBytes 8 v.toNat)

/-- RECST executed. -/
def runRecst (x : Ex) (w : Nat) : Except Flt Ex := sysStore x w x.core.record

/-- MST executed. -/
def runMst (x : Ex) (w : Nat) : Except Flt Ex := sysStore x w (maskOf x.core (bits w 50 48))

end Sys2Proof.Machine
end

