-- ==== Sys2Proof/Machine/DmaOps.lean ====
section
/-! DEFINITION. The skew DMA descriptors (05 R162 to R170; 04 R94, R95, R109). -/

namespace Sys2Proof.Machine

open Sys2Proof

/-! ### Descriptor fields -/

/-- Word `i` of a descriptor, as a number. -/
def dmaWord (op : DmaOp) (i : Nat) : Nat := (nth 0 op.desc i).toNat

def dKind (op : DmaOp) : Nat := bits (dmaWord op 0) 7 0
def dSsp (op : DmaOp) : Bool := bit (dmaWord op 0) 17
def dDsp (op : DmaOp) : Bool := bit (dmaWord op 0) 18
def dFmt (op : DmaOp) : Nat := bits (dmaWord op 0) 23 19
def dCvt (op : DmaOp) : Nat := bits (dmaWord op 0) 26 24

/-- An address of the source side: its field plus B[BSRC], modulo 2^64 (R163). -/
def srcAddr (op : DmaOp) (field : Nat) : Nat := (field + op.bsrc.toNat) % 2 ^ 64
/-- An address of the destination side. -/
def dstAddr (op : DmaOp) (field : Nat) : Nat := (field + op.bdst.toNat) % 2 ^ 64

def dSrc (op : DmaOp) : Nat := srcAddr op (bits (dmaWord op 1) 47 0)
def dDst (op : DmaOp) : Nat := dstAddr op (bits (dmaWord op 2) 47 0)
def dSstride (op : DmaOp) : Nat := bits (dmaWord op 4) 47 0
def dDstride (op : DmaOp) : Nat := bits (dmaWord op 5) 47 0

/-- The owner code of the engine that runs it. -/
def dOwner (op : DmaOp) : Nat := if bit op.word.toNat 52 then ownDma1 else ownDma0

/-- Bit 0 of its mask: the data is not gated (R109). -/
def dGate (op : DmaOp) : Bool := op.pred.getLsbD 0

/-- Reserved bits of words 3 to 7 are zero, by KIND. -/
def descReserved (op : DmaOp) : Bool :=
  let w := dmaWord op
  match dKind op with
  | 1 => bits (w 3) 31 24 == 0 && bits (w 3) 63 48 == 0 && bits (w 4) 63 48 == 0 &&
      bits (w 5) 63 48 == 0 && w 6 == 0 && w 7 == 0
  | 2 => bits (w 3) 63 32 == 0 && bits (w 4) 63 48 == 0 && bits (w 5) 63 48 == 0 &&
      w 6 == 0 && w 7 == 0
  | 3 => bits (w 3) 63 15 == 0 && bits (w 4) 63 48 == 0 && bits (w 5) 63 48 == 0 &&
      bits (w 6) 63 48 == 0 && w 7 == 0
  | 4 => bits (w 3) 63 33 == 0 && bits (w 4) 63 48 == 0 && bits (w 5) 63 48 == 0 &&
      bits (w 6) 63 48 == 0 && bits (w 7) 63 24 == 0
  | _ => bits (w 3) 63 40 == 0 && bits (w 4) 63 25 == 0 && bits (w 5) 63 48 == 0 &&
      bits (w 6) 63 48 == 0 && w 7 == 0

/-- The descriptor is one that its instruction may run: kind, version, sides, reserved bits (R95, R163).
DESIGN CHOICE (log 101): a kind that does not use FMT, MX or CVT takes any value there (R40, R41). -/
def descOk (op : DmaOp) : Bool :=
  let w := dmaWord op
  dKind op == opOf op.word.toNat - 0x17 && bits (w 0) 15 8 == 1 && !bit (w 0) 16 &&
  bits (w 0) 63 34 == 0 && bits (w 1) 63 48 == 0 && bits (w 2) 63 48 == 0 &&
  (dSsp op || dDsp op) && descReserved op

/-! ### Accesses of either side -/

/-- A range of one side: plate or device, address, length, whether it is written. -/
structure Span where
  plate : Bool
  a     : Nat
  n     : Nat
  write : Bool
  deriving DecidableEq, Repr

/-- The check of a range (R118, R139, R160). -/
def checkSpan (d : Dx) (owner : Nat) (s : Span) : Option Flt :=
  if s.plate then checkPlate d.ex.core.tags owner s.a s.n s.write else checkDev d.mem s.a s.n s.write

/-- The check of every range before the first byte moves: the lowest code counts (R131, R164). -/
def verify (d : Dx) (owner : Nat) : List Span → Option Flt
  | [] => none
  | s :: ss => lowerFlt (checkSpan d owner s) (verify d owner ss)

/-- A fault of the plate side: what it corrected counts with the descriptor (R137). -/
def plateFault {α : Type} (d : Dx) (f : Flt) : DmaOut α :=
  .flt { f with ce := 0 } { d with ex := { d.ex with ce := max d.ex.ce f.ce } }

/-- A read of either side. -/
def sideRead (d : Dx) (plate : Bool) (a n : Nat) : DmaOut (List Byte) :=
  if plate then match plateFetch d.ex a n with
    | .error f => plateFault d f
    | .ok (bs, x) => .ok bs { d with ex := x }
  else devRead d a n

/-- A write of either side. -/
def sideWrite (d : Dx) (plate : Bool) (a : Nat) (bs : List Byte) : DmaOut Unit :=
  if plate then match plateStore d.ex a bs with
    | .error f => plateFault d f
    | .ok x => .ok () { d with ex := x }
  else .ok () (devWrite d a bs)

/-- Reads of `n` bytes at each address listed. -/
def readRows (d : Dx) (plate : Bool) (n : Nat) : List Nat → DmaOut (List (List Byte))
  | [] => .ok [] d
  | a :: as => match sideRead d plate a n with
    | .stall d => .stall d
    | .flt f d => .flt f d
    | .ok bs d => match readRows d plate n as with
      | .stall d => .stall d
      | .flt f d => .flt f d
      | .ok r d => .ok (bs :: r) d

/-- Writes of rows at addresses. -/
def writeRows (d : Dx) (plate : Bool) : List (Nat × List Byte) → DmaOut Unit
  | [] => .ok () d
  | (a, bs) :: r => match sideWrite d plate a bs with
    | .stall d => .stall d
    | .flt f d => .flt f d
    | .ok _ d => writeRows d plate r

/-- Addresses of `n` rows: base + i × stride, modulo 2^64. -/
def rowAddrs (base stride n : Nat) : List Nat :=
  (List.range n).map fun i => (base + i * stride) % 2 ^ 64

/-- The ranges of rows. -/
def rowSpans (plate : Bool) (as : List Nat) (n : Nat) (write : Bool) : List Span :=
  as.map fun a => { plate := plate, a := a, n := n, write := write }

/-- A plate side's address and stride are 8-byte aligned (R135). -/
def sideAligned (plate : Bool) (a stride : Nat) : Bool := !plate || (a % 8 == 0 && stride % 8 == 0)

/-- ILLEGAL_OP of a descriptor. -/
def descIllegal (op : DmaOp) (d : Dx) : DmaOut Word := .flt (illegal op.word) d

/-- A descriptor that raises no flag, ended. -/
def quiet : DmaOut Unit → DmaOut Word
  | .ok _ d => .ok 0#32 d
  | .stall d => .stall d
  | .flt f d => .flt f d

def zeros (n : Nat) : List Byte := List.replicate n 0

/-! ### ROW (R166) -/

/-- Rows copied one after the other. -/
def copyRows (d : Dx) (gate sp dp : Bool) (n : Nat) : List (Nat × Nat) → DmaOut Unit
  | [] => .ok () d
  | (a, b) :: r =>
    match (if gate then sideRead d sp a n else .ok (zeros n) d) with
    | .stall d => .stall d
    | .flt f d => .flt f d
    | .ok bs d => match sideWrite d dp b bs with
      | .stall d => .stall d
      | .flt f d => .flt f d
      | .ok _ d => copyRows d gate sp dp n r

def runRow (d : Dx) (op : DmaOp) : DmaOut Word :=
  let n := bits (dmaWord op 3) 23 0
  let rows := bits (dmaWord op 3) 47 32 + 1
  if n = 0 ∨ n % 8 ≠ 0 ∨ !sideAligned (dSsp op) (dSrc op) (dSstride op) ∨
      !sideAligned (dDsp op) (dDst op) (dDstride op) then descIllegal op d
  else
    let as := rowAddrs (dSrc op) (dSstride op) rows
    let bs := rowAddrs (dDst op) (dDstride op) rows
    match verify d (dOwner op) (rowSpans (dSsp op) as n false ++ rowSpans (dDsp op) bs n true) with
    | some f => .flt f d
    | none => quiet (copyRows d (dGate op) (dSsp op) (dDsp op) n (as.zip bs))

/-! ### COL (R167) -/

/-- Element width in bytes, for the formats COL takes. -/
def colWidth (fmt : Nat) : Option Nat :=
  match fmt with
  | 0 => some 4
  | 1 => some 2
  | 2 => some 2
  | 3 => some 1
  | 4 => some 1
  | 8 => some 1
  | 9 => some 4
  | _ => none

/-- Column `j` of rows of `w`-byte elements. -/
def columnBytes (rows : List (List Byte)) (w j : Nat) : List Byte :=
  rows.flatMap fun r => (r.drop (j * w)).take w

/-- DMA_COL (R167). DESIGN CHOICE (log 101): its rows may have a length that is no multiple of 8 (R135). -/
def runCol (d : Dx) (op : DmaOp) : DmaOut Word :=
  let nr := bits (dmaWord op 3) 15 0 + 1
  let nc := bits (dmaWord op 3) 31 16 + 1
  match colWidth (dFmt op) with
  | none => descIllegal op d
  | some w =>
    if !sideAligned (dSsp op) (dSrc op) (dSstride op) ∨
        !sideAligned (dDsp op) (dDst op) (dDstride op) then descIllegal op d
    else
      let as := rowAddrs (dSrc op) (dSstride op) nr
      let bs := rowAddrs (dDst op) (dDstride op) nc
      match verify d (dOwner op)
          (rowSpans (dSsp op) as (nc * w) false ++ rowSpans (dDsp op) bs (nr * w) true) with
      | some f => .flt f d
      | none =>
        match (if dGate op then readRows d (dSsp op) (nc * w) as
               else .ok (List.replicate nr (zeros (nc * w))) d) with
        | .stall d => .stall d
        | .flt f d => .flt f d
        | .ok rows d => quiet (writeRows d (dDsp op)
            ((bs.zipIdx).map fun p => (p.1, columnBytes rows w p.2)))

/-! ### PRESS_IMAGE (R168) -/

/-- The formats that SRCT 1 allows. -/
def kMajorOk (fmt : Nat) : Bool := [1, 2, 3, 4, 8].contains fmt

/-- Slot `j` of line `t` of an image: a segment and its scale word, or a pad of zeros (R75, R76). -/
def imageSlot (k : OpClass) (fmt kseg n t j : Nat) (cols scales : List (List Byte)) : List Byte :=
  let s := slotBytes k fmt
  if j ≤ t ∧ t - j < n ∧ j < kseg then
    let eb := segBytes k fmt
    let g := classGroups k
    let es := ((nth [] cols (t - j)).drop (j * eb)).take eb
    let ss := if fmtMx fmt then
        ((((nth [] scales (t - j)).drop (j * g)).take g) ++ zeros 8).take 8 else []
    es ++ ss
  else zeros s

/-- The bytes of an image. -/
def imageBytes (k : OpClass) (fmt kseg n : Nat) (cols scales : List (List Byte)) : List Byte :=
  (List.range (n + kseg - 1)).flatMap fun t =>
    (List.range kseg).flatMap fun j => imageSlot k fmt kseg n t j cols scales

/-- The columns' scale bytes. -/
def readScales (d : Dx) (op : DmaOp) (mx : Bool) (len : Nat) (as : List Nat) : DmaOut (List (List Byte)) :=
  if mx then readRows d (dSsp op) len as else .ok [] d

/-- The columns and scales read, and the image written. -/
def buildImage (d : Dx) (op : DmaOp) (k : OpClass) (kmajor : Bool) (kseg n : Nat)
    (as scs : List Nat) : DmaOut Word :=
  let fmt := dFmt op
  let wb := elemWidth (fmtElem fmt) / 8
  let len := if kmajor then n * wb else kseg * segBytes k fmt
  match readRows d (dSsp op) len as with
  | .stall d => .stall d
  | .flt f d => .flt f d
  | .ok rows d =>
    let cols := if kmajor then (List.range n).map fun j => columnBytes rows wb j else rows
    match readScales d op (fmtMx fmt) (kseg * classGroups k) scs with
    | .stall d => .stall d
    | .flt f d => .flt f d
    | .ok scales d => quiet (sideWrite d true (dDst op) (imageBytes k fmt kseg n cols scales))

def runPressImage (d : Dx) (op : DmaOp) : DmaOut Word :=
  let fmt := dFmt op
  let n := bits (dmaWord op 3) 10 0 + 1
  let kseg := bits (dmaWord op 3) 13 11 + 1
  let kmajor := bit (dmaWord op 3) 14
  let ss := dSstride op
  match classOf fmt with
  | none => descIllegal op d
  | some k =>
    if !fmtOk fmt ∨ (kmajor ∧ !kMajorOk fmt) ∨ !dDsp op ∨ dDst op % 64 ≠ 0 ∨
        !sideAligned (dSsp op) (dSrc op) ss then descIllegal op d
    else
      let wb := elemWidth (fmtElem fmt) / 8
      let as := rowAddrs (dSrc op) ss (if kmajor then kseg * classSeg k else n)
      let len := if kmajor then n * wb else kseg * segBytes k fmt
      let scs := rowAddrs (srcAddr op (bits (dmaWord op 5) 47 0)) (bits (dmaWord op 6) 47 0) n
      let size := (n + kseg - 1) * (kseg * slotBytes k fmt)
      let spans := rowSpans (dSsp op) as len false ++
        (if fmtMx fmt then rowSpans (dSsp op) scs (kseg * classGroups k) false else []) ++
        [{ plate := true, a := dDst op, n := size, write := true }]
      match verify d (dOwner op) spans with
      | some f => .flt f d
      | none =>
        if dGate op then buildImage d op k kmajor kseg n as scs
        else quiet (sideWrite d true (dDst op) (zeros size))

/-! ### MX_PACK (R169) -/

/-- The blocks of one row of FP32 values: element codes, scales, flags; block `b` is block `b0 + b` in
the descriptor's order, which fixes its random words. -/
def packBlocks (elem rmode : Nat) (key : BitVec 128) (ctr : DWord) :
    Nat → List (List Word) → List Nat × List Nat × Word
  | _, [] => ([], [], 0#32)
  | b, vs :: bs =>
    let rs := if rmode = 2 then (randWords key (ctr + dw (8 * b)) 32).map (·.toNat)
      else List.replicate 32 0
    let (s, es, f) := mxBlock elem rmode rs (vs.map fp)
    let (er, sr, g) := packBlocks elem rmode key ctr (b + 1) bs
    (es ++ er, s :: sr, f ||| nanIn vs ||| g)

/-- The 32-bit words of bytes. -/
def bytesWord32 (n : Nat) (bs : List Byte) : List Word :=
  (chunks 4 n bs).map fun b => BitVec.ofNat 32 (leNat b)

/-- One row packed. -/
def packRow (d : Dx) (op : DmaOp) (elem nb i a b sc : Nat) : DmaOut Word :=
  let w := elemWidth elem
  if !dGate op then
    match sideWrite d (dDsp op) b (zeros (nb * 32 * w / 8)) with
    | .stall d => .stall d
    | .flt f d => .flt f d
    | .ok _ d => quiet (sideWrite d (dDsp op) sc (zeros nb))
  else match sideRead d (dSsp op) a (128 * nb) with
    | .stall d => .stall d
    | .flt f d => .flt f d
    | .ok bs d =>
      let (es, ss, fl) := packBlocks elem (dCvt op % 4) op.ctx op.bcv (i * nb)
        (chunks 32 nb (bytesWord32 (32 * nb) bs))
      match sideWrite d (dDsp op) b (packElems w es) with
      | .stall d => .stall d
      | .flt f d => .flt f d
      | .ok _ d => match sideWrite d (dDsp op) sc (ss.map (BitVec.ofNat 8)) with
        | .stall d => .stall d
        | .flt f d => .flt f d
        | .ok _ d => .ok fl d

/-- One row unpacked. -/
def unpackRow (d : Dx) (op : DmaOp) (elem nb a b sc : Nat) : DmaOut Word :=
  let w := elemWidth elem
  if !dGate op then quiet (sideWrite d (dDsp op) b (zeros (128 * nb)))
  else match sideRead d (dSsp op) a (nb * 32 * w / 8) with
    | .stall d => .stall d
    | .flt f d => .flt f d
    | .ok es d => match sideRead d (dSsp op) sc nb with
      | .stall d => .stall d
      | .flt f d => .flt f d
      | .ok ss d =>
        let r := widenAll (16 + elem) (unpackElems w (32 * nb) es) (ss.map (·.toNat))
        match sideWrite d (dDsp op) b (word32Bytes (r.map (·.1))) with
        | .stall d => .stall d
        | .flt f d => .flt f d
        | .ok _ d => .ok (r.foldl (fun f p => f ||| p.2) 0#32) d

/-- Rows packed or unpacked in order. -/
def mxRows (d : Dx) (op : DmaOp) (elem nb : Nat) (up : Bool) :
    Nat → List (Nat × Nat × Nat) → DmaOut Word
  | _, [] => .ok 0#32 d
  | i, (a, b, sc) :: r =>
    match (if up then unpackRow d op elem nb a b sc else packRow d op elem nb i a b sc) with
    | .stall d => .stall d
    | .flt f d => .flt f d
    | .ok f d => match mxRows d op elem nb up (i + 1) r with
      | .stall d => .stall d
      | .flt g d => .flt g d
      | .ok g d => .ok (f ||| g) d

def runMxPack (d : Dx) (op : DmaOp) : DmaOut Word :=
  let fmt := dFmt op
  let elem := fmtElem fmt
  let rows := bits (dmaWord op 3) 15 0 + 1
  let nb := bits (dmaWord op 3) 31 16 + 1
  let up := bit (dmaWord op 3) 32
  if !fmtMx fmt ∨ !fmtOk fmt ∨ dCvt op % 4 = 3 ∨
      !sideAligned (dSsp op) (dSrc op) (dSstride op) ∨
      !sideAligned (dDsp op) (dDst op) (dDstride op) then descIllegal op d
  else
    let eb := nb * 32 * elemWidth elem / 8
    let as := rowAddrs (dSrc op) (dSstride op) rows
    let bs := rowAddrs (dDst op) (dDstride op) rows
    let f := bits (dmaWord op 6) 47 0
    let scs := rowAddrs (if up then srcAddr op f else dstAddr op f) (bits (dmaWord op 7) 23 0) rows
    let spans :=
      if up then rowSpans (dSsp op) as eb false ++ rowSpans (dSsp op) scs nb false ++
        rowSpans (dDsp op) bs (128 * nb) true
      else rowSpans (dSsp op) as (128 * nb) false ++ rowSpans (dDsp op) bs eb true ++
        rowSpans (dDsp op) scs nb true
    match verify d (dOwner op) spans with
    | some f => .flt f d
    | none => mxRows d op elem nb up 0 (as.zip (bs.zip scs))

/-! ### GATHER (R170) -/

/-- The fixed part of a GATHER: entry length, the two sides' planes, bases and pitches. -/
structure Gather where
  elen   : Nat
  toSide : Bool      -- true: the indexed side is the source
  iPlate : Bool
  iBase  : Nat
  iStep  : Nat
  oPlate : Bool
  oBase  : Nat
  oStep  : Nat
  deriving DecidableEq, Repr

def gatherOf (op : DmaOp) : Gather :=
  let idxSrc := !(dSsp op && !dDsp op)
  { elen := bits (dmaWord op 3) 39 16, toSide := idxSrc
    iPlate := if idxSrc then dSsp op else dDsp op
    iBase := if idxSrc then dSrc op else dDst op
    iStep := bits (dmaWord op 5) 47 0
    oPlate := if idxSrc then dDsp op else dSsp op
    oBase := if idxSrc then dDst op else dSrc op
    oStep := bits (dmaWord op 6) 47 0 }

/-- One entry moved: checked, read and written; a gated entry writes zeros. -/
def gatherMove (d : Dx) (owner : Nat) (live sp dp : Bool) (a b n : Nat) : DmaOut Unit :=
  match verify d owner [{ plate := sp, a := a, n := n, write := false },
      { plate := dp, a := b, n := n, write := true }] with
  | some f => .flt f d
  | none =>
    match (if live then sideRead d sp a n else .ok (zeros n) d) with
    | .stall d => .stall d
    | .flt f d => .flt f d
    | .ok bs d => sideWrite d dp b bs

/-- Entry `i` with index `x`. -/
def gatherEntry (d : Dx) (op : DmaOp) (g : Gather) (i x : Nat) : DmaOut Unit :=
  let o := (g.oBase + i * g.oStep) % 2 ^ 64
  let e := (g.iBase + x * g.iStep) % 2 ^ 64
  let live := op.pred.getLsbD (i % 64)
  if x = 0xFFFFFFFF then
    if g.toSide then
      match verify d (dOwner op) [{ plate := g.oPlate, a := o, n := g.elen, write := true }] with
      | some f => .flt f d
      | none => sideWrite d g.oPlate o (zeros g.elen)
    else .ok () d
  else if g.toSide then gatherMove d (dOwner op) live g.iPlate g.oPlate e o g.elen
  else gatherMove d (dOwner op) live g.oPlate g.iPlate o e g.elen

/-- Entries in ascending order. -/
def gatherEntries (d : Dx) (op : DmaOp) (g : Gather) : Nat → List Nat → DmaOut Unit
  | _, [] => .ok () d
  | i, x :: xs => match gatherEntry d op g i x with
    | .stall d => .stall d
    | .flt f d => .flt f d
    | .ok _ d => gatherEntries d op g (i + 1) xs

def runGather (d : Dx) (op : DmaOp) : DmaOut Word :=
  let g := gatherOf op
  let n := bits (dmaWord op 3) 15 0 + 1
  let table := bits (dmaWord op 4) 24 0
  if g.elen = 0 ∨ g.elen % 8 ≠ 0 ∨ table % 4 ≠ 0 ∨ !sideAligned g.iPlate g.iBase g.iStep ∨
      !sideAligned g.oPlate g.oBase g.oStep then descIllegal op d
  else match checkPlate d.ex.core.tags (dOwner op) table (4 * n) false with
    | some f => .flt f d
    | none => match plateFetch d.ex table (4 * n) with
      | .error f => plateFault d f
      | .ok (bs, x) =>
        quiet (gatherEntries { d with ex := x } op g 0 ((bytesWord32 n bs).map (·.toNat)))

/-! ### A descriptor (R95, R163) -/

/-- A descriptor run from beginning to end: its flags and what it leaves. -/
def runDesc (d : Dx) (op : DmaOp) : DmaOut Word :=
  if !descOk op then descIllegal op d
  else match dKind op with
    | 1 => runRow d op
    | 2 => runCol d op
    | 3 => runPressImage d op
    | 4 => runMxPack d op
    | _ => runGather d op

end Sys2Proof.Machine
end

