-- ==== Sys2Proof/Config.lean ====
section
/-! DEFINITION. What the manual leaves to the part or leaves open: constants without a value. No proof can see what any of them is. -/

namespace Sys2Proof

/-- The signature of draw `n` over a message with the identity key (R327, R449): the key is the part's
own. DESIGN CHOICE: a free value. -/
opaque Config.signature (n : Nat) (msg : List Byte) : List Byte

/-- Bytes 0 to 7 of the digest of the identity key's public part (R327, R347). -/
opaque Config.identity : DWord

/-- The device's unique identifier (R455). -/
opaque Config.uid : DWord

/-- The debug nonce of draw `n` (R457). -/
opaque Config.debugNonce (n : Nat) : BitVec 128

/-- The ROM's digest of firmware key `k` (R447). -/
opaque Config.romKey (k : Nat) : Digest

/-- The debug key that verifies tokens: its modulus (R455). -/
opaque Config.debugModulus : Nat

/-- A measurement that the manual names without its bytes (R454), by index and measurement generation. -/
opaque Config.measurement (index gen : Nat) : Digest

/-- What an SPDM answer holds beyond the fields named, for draw `n` (R451). -/
opaque Config.spdmAnswer (n : Nat) : List Byte

/-- The digest of the common part of a plan: the manual gives the sections but not the bytes between
them (table before R381). -/
opaque Config.commonDigest (c : PlanCommon) : Digest

/-- The digest of the device part of a plan. -/
opaque Config.deviceDigest (d : PlanDevice) : Digest

/-- Where the null page table stands (R251). -/
opaque Config.nullTable : Nat

/-- The bytes of a TREE node whose block has `n` tokens (R262): the manual gives a node no size. -/
opaque Config.nodeBytes (n : Nat) : Nat

/-- The bytes of a dump's unit (R465) of draw `n`. -/
opaque Config.dumpUnit (n unit : Nat) : List Byte

/-- The size of a dump's snapshot (R465, R468) of draw `n`, in 4 KiB units. -/
opaque Config.dumpSize (n : Nat) : Nat

/-- The fused minimum VID at which heath `h` runs at 850 MHz, of its core rail and of its SRAM rail (R475, R476). -/
opaque Config.fusedVid (h : Nat) : Nat
opaque Config.fusedSram (h : Nat) : Nat

/-- The guard band above the fused VID at a sensor reading (R476): the manual gives no numbers. -/
opaque Config.guardBand (temp : Nat) : Nat

/-- Whether a fuse command cut short left its setting at the new value (R460), for draw `n`. -/
opaque Config.fuseTakes (n : Nat) : Bool

/-- The stepping of the part (R34). -/
opaque Config.stepping : Nat

/-- How many ticks beyond T0 + 40,000 the coordinator chooses L1 (R191), for draw `n`. -/
opaque Config.launchSlack (n : Nat) : Nat

/-- Whether the other members' replica sets, and in a pair the partner's plan and image, agree at a launch
(check 9 of R396): no message carries what they hold. -/
opaque Config.setsAgree (n : Nat) : Bool

/-- The code of the event that reports a lost rim die (R33), for draw `n`: the table of event codes has
none. -/
opaque Config.rimLossEvent (n : Nat) : BitVec 16

/-- The bytes of a management message's body, where the manual gives it no layout (R394). -/
opaque Config.mgmtBody (m : MgmtOut) : List Byte

/-- The export master secret of the session that draw `n` sets up (R453). -/
opaque Config.exportSecret (n : Nat) : Digest

/-- The heartbeat period of the session that draw `n` sets up, in ticks; 0: none (R451). -/
opaque Config.heartbeat (n : Nat) : Nat

/-- The chain leads from a Quodritik root through a Quodritik device CA to a leaf whose public key is this device's
(R452): the manual refers to certificates without their bytes. -/
opaque Config.chainOk (chain : List Byte) : Bool

/-- The lines that a zeroing of DDR has reached when a warm reset cuts it short (R485), for draw `n`. -/
opaque Config.lineZeroed (n line : Nat) : Bool

/-- Whether a member's slot holds the content of a root or digest (R158), for draw `n`. -/
opaque Config.peerHolds (n : Nat) (d : Digest) (device : Nat) : Bool

/-- Utilisation of the bridges in a congestion map (R393), for interval `n`: no counter of them is given. -/
opaque Config.bridgeUse (n : Nat) : Word

end Sys2Proof
end

