-- ==== Sys2Proof/Machine/Rings.lean ====
section
/-! DEFINITION. Completion rings, event rings and interrupts (13, R416, R428 to R432). -/

namespace Sys2Proof.Machine

open Sys2Proof

/-! ### Completion words (tables of R428) -/

def ctTokens : Nat := 1
def ctReqDone : Nat := 2
def ctProof : Nat := 3
def ctProgDone : Nat := 4
def ctEvent : Nat := 5
def ctError : Nat := 6

/-- Word 0 of a completion, PHASE clear. -/
def compWord0 (type status sring req opcode : Nat) : DWord :=
  BitVec.ofNat 64 (0x01 + type % 256 * 2 ^ 8 + status % 256 * 2 ^ 16 + sring % 64 * 2 ^ 32 +
    req % 65536 * 2 ^ 40 + opcode % 256 * 2 ^ 56)

/-- A completion of eight words from its words 2 to 7; words left out are 0. -/
def compWords (w0 tag : DWord) (rest : List DWord) : List DWord :=
  (w0 :: tag :: rest ++ List.replicate 6 0#64).take 8

/-- The bytes of words, little-endian. -/
def wordsBytes (ws : List DWord) : List Byte := ws.flatMap fun w => leBytes 8 w.toNat

/-- A digest as four little-endian words of its 32 bytes. -/
def digestBytes (d : Digest) : List Byte := beBytes 32 d.toNat
def digestWords (d : Digest) : List DWord :=
  (chunks 8 4 (digestBytes d)).map fun b => dw (leNat b)
def digestOfBytes (bs : List Byte) : Digest := BitVec.ofNat 256 (beNat (bs.take 32))

/-! ### Rings -/

def evtRing : Nat := 128

def ringAt (s : State) (f r : Nat) : Ring := look {} (fnAt s f).rings r
def setRing (s : State) (f r : Nat) (x : Ring) : State :=
  updFn s f fun fn => { fn with rings := put {} fn.rings r x }

/-- Entries written and not consumed, counts modulo 2^32 (R416). -/
def ringUsed (r : Ring) : Nat := (r.written % 2 ^ 32 + 2 ^ 32 - r.consumed % 2 ^ 32) % 2 ^ 32

/-- The ring has an entry free. -/
def ringRoom (r : Ring) : Bool := !r.stopped && decide (ringUsed r < 2 ^ r.log2)

def fnActive (s : State) (f : Nat) : Bool := (fnAt s f).state == 1

/-! ### Interrupts (R432) -/

def msixKey (f vec : Nat) : Nat := 4096 * f + vec

/-- Vector `vec` of function `f` is sent, or pends while masked; none of a disabled function's is (R437). -/
def sendVector (s : State) (f vec : Nat) : State :=
  let m := look {} s.hif.msix (msixKey f vec)
  if !fnActive s f then s
  else if m.masked then
    { s with hif := { s.hif with msix := put {} s.hif.msix (msixKey f vec) { m with pend := true } } }
  else { s with hif := { s.hif with irqs := (f, vec) :: s.hif.irqs } }

/-- The ring's vector is sent and no completion of it stays unsignalled. -/
def signalRing (s : State) (f r : Nat) : State :=
  let x := ringAt s f r
  sendVector (setRing s f r { x with unsig := 0 }) f x.vector

/-- One entry written to a ring that has room; its interrupt follows (R428, R432). -/
def writeEntry (s : State) (f r : Nat) (ws : List DWord) : State :=
  let x := ringAt s f r
  let phase := if x.written >>> x.log2 % 2 = 0 then 1 else 0
  let w0 := (ws.headD 0) ||| dw (phase * 2 ^ 24)
  let s := hostWrite s (x.base + 64 * (x.written % 2 ^ x.log2)) (wordsBytes (w0 :: ws.tail))
  let x' := { x with
    written := x.written + 1
    unsig := if x.irq then x.unsig + 1 else x.unsig
    since := if x.irq ∧ x.unsig = 0 then now s else x.since }
  let s := setRing s f r x'
  if x'.irq ∧ (if x.coalCount = 0 then 1 else x.coalCount) ≤ x'.unsig then signalRing s f r else s

/-- Entries of a function's holding queue, and the one after the newest that waits (R237, R430). -/
def queueEntries : Nat := 102400
def nextHeld (fn : Fn) : Nat :=
  match fn.held.getLast? with
  | some h => (h.at_ + 1) % queueEntries
  | none => 0

/-- A completion for completion ring `r` of function `f` (R428, R430): written where the ring has room
and none waits before it, else held. Nothing is written for a function that is not enabled (R437). -/
def complete (s : State) (f r : Nat) (ws : List DWord) : State :=
  if !fnActive s f then s
  else
    let fn := fnAt s f
    if ringRoom (ringAt s f (64 + r)) && !(fn.held.any fun h => h.ring == r) then
      writeEntry s f (64 + r) ws
    else setFn s f { fn with held := fn.held ++ [{ ring := r, words := ws, at_ := nextHeld fn }] }

/-- Held completions of the function written in order while their rings have room (R430). -/
def drainHeld (s : State) (f : Nat) : List HeldComp → State × List HeldComp
  | [] => (s, [])
  | h :: hs =>
    if ringRoom (ringAt s f (64 + h.ring)) then drainHeld (writeEntry s f (64 + h.ring) h.words) f hs
    else
      let (s', rest) := drainHeld s f hs
      (s', h :: rest)

/-- A completion to whoever asked, while the generation that asked still stands (R438). -/
def answer (s : State) (a : Asker) (ws : List DWord) : State :=
  if (fnAt s a.fn).gen = a.gen then complete s a.fn a.cring ws else s

/-- The EVENT that answers a descriptor: code, DETAIL and ROOT. -/
def answerEvent (s : State) (a : Asker) (status code detail : Nat) (root : Digest) (req : Nat) : State :=
  answer s a (compWords (compWord0 ctEvent status a.sring req a.op) a.tag
    ([dw code, dw detail] ++ digestWords root))

/-- The EVENT of a descriptor with nothing but a status. -/
def answerStatus (s : State) (a : Asker) (status : Nat) : State := answerEvent s a status 0 0 0 0

/-! ### Device events (R431) -/

/-- An event entry. -/
def eventWords (code detail : Nat) : List DWord :=
  compWords (compWord0 ctEvent stOK 0 0 0) 0#64 [dw code, dw detail]

/-- An event for the event ring of function `f`: dropped and counted while the ring is full or while
EVENT_LOST is due first. -/
def postTo (s : State) (f : Nat) (ws : List DWord) : State :=
  if !fnActive s f then s
  else
    let fn := fnAt s f
    if fn.dropped = 0 ∧ ringRoom (ringAt s f evtRing) then writeEntry s f evtRing ws
    else setFn s f { fn with dropped := fn.dropped + 1 }

/-- A device event on PF0's event ring. -/
def postEvent (s : State) (code detail : Nat) : State := postTo s 0 (eventWords code detail)

def evStarted : Nat := 0x01
def evHeathLost : Nat := 0x02
def evHoldover : Nat := 0x03
def evCopyOut : Nat := 0x04
def evRemapped : Nat := 0x05
def evExhausted : Nat := 0x06
def evChanFailed : Nat := 0x07
def evQuarantine : Nat := 0x08
def evLinkDown : Nat := 0x09
def evSuspect : Nat := 0x0A
def evCheckpoint : Nat := 0x0B
def evDiverged : Nat := 0x0C
def evPairLost : Nat := 0x0D
def evFenced : Nat := 0x0E
def evFnReset : Nat := 0x0F
def evLost : Nat := 0x10

/-- An ERROR for a descriptor that failed the common checks, or for a ring: to `r` where it is a valid
completion ring, else to the event ring (R421). -/
def postError (s : State) (f : Nat) (r : Option Nat) (status sring opcode : Nat) (tag : DWord)
    (ring index : Nat) (word0 : DWord) : State :=
  let ws := compWords (compWord0 ctError status sring 0 opcode) tag
    [dw (ring % 64 + index % 2 ^ 32 * 2 ^ 32), word0]
  match r with
  | some r => complete s f r ws
  | none => postTo s f ws

end Sys2Proof.Machine
end

