-- ==== Sys2Proof/Machine/Sha.lean ====
section
/-! DEFINITION. SHA-256 (FIPS 180-4), HMAC-SHA-256, the Merkle root of R281, the CRC-64 of R358, and the verification of RSASSA-PSS signatures (R446). -/

namespace Sys2Proof.Machine

open Sys2Proof

/-! ### SHA-256 -/

/-- The round constants. -/
def shaK : List Nat :=
  [0x428A2F98, 0x71374491, 0xB5C0FBCF, 0xE9B5DBA5,
   0x3956C25B, 0x59F111F1, 0x923F82A4, 0xAB1C5ED5,
   0xD807AA98, 0x12835B01, 0x243185BE, 0x550C7DC3,
   0x72BE5D74, 0x80DEB1FE, 0x9BDC06A7, 0xC19BF174] ++
  [0xE49B69C1, 0xEFBE4786, 0x0FC19DC6, 0x240CA1CC,
   0x2DE92C6F, 0x4A7484AA, 0x5CB0A9DC, 0x76F988DA,
   0x983E5152, 0xA831C66D, 0xB00327C8, 0xBF597FC7,
   0xC6E00BF3, 0xD5A79147, 0x06CA6351, 0x14292967] ++
  [0x27B70A85, 0x2E1B2138, 0x4D2C6DFC, 0x53380D13,
   0x650A7354, 0x766A0ABB, 0x81C2C92E, 0x92722C85,
   0xA2BFE8A1, 0xA81A664B, 0xC24B8B70, 0xC76C51A3,
   0xD192E819, 0xD6990624, 0xF40E3585, 0x106AA070] ++
  [0x19A4C116, 0x1E376C08, 0x2748774C, 0x34B0BCB5,
   0x391C0CB3, 0x4ED8AA4A, 0x5B9CCA4F, 0x682E6FF3,
   0x748F82EE, 0x78A5636F, 0x84C87814, 0x8CC70208,
   0x90BEFFFA, 0xA4506CEB, 0xBEF9A3F7, 0xC67178F2]

/-- The initial hash value. -/
def shaInit : List Word :=
  [0x6A09E667, 0xBB67AE85, 0x3C6EF372, 0xA54FF53A, 0x510E527F, 0x9B05688C, 0x1F83D9AB, 0x5BE0CD19]

def rotr (x : Word) (n : Nat) : Word := x.rotateRight n

def sigmaA (x : Word) : Word := rotr x 7 ^^^ rotr x 18 ^^^ (x >>> 3)
def sigmaB (x : Word) : Word := rotr x 17 ^^^ rotr x 19 ^^^ (x >>> 10)
def sumA (x : Word) : Word := rotr x 2 ^^^ rotr x 13 ^^^ rotr x 22
def sumB (x : Word) : Word := rotr x 6 ^^^ rotr x 11 ^^^ rotr x 25

/-- The next word of the message schedule, from its 16 predecessors, oldest first. -/
def schedNext (w : List Word) : Word :=
  sigmaB (nth 0 w 14) + nth 0 w 9 + sigmaA (nth 0 w 1) + nth 0 w 0

/-- The working variables. -/
structure ShaVars where
  a : Word
  b : Word
  c : Word
  d : Word
  e : Word
  f : Word
  g : Word
  h : Word
  deriving DecidableEq, Repr

def shaVars (h : List Word) : ShaVars :=
  { a := nth 0 h 0, b := nth 0 h 1, c := nth 0 h 2, d := nth 0 h 3
    e := nth 0 h 4, f := nth 0 h 5, g := nth 0 h 6, h := nth 0 h 7 }

def shaRound (v : ShaVars) (k w : Word) : ShaVars :=
  let t1 := v.h + sumB v.e + ((v.e &&& v.f) ^^^ (~~~v.e &&& v.g)) + k + w
  let t2 := sumA v.a + ((v.a &&& v.b) ^^^ (v.a &&& v.c) ^^^ (v.b &&& v.c))
  { a := t1 + t2, b := v.a, c := v.b, d := v.c, e := v.d + t1, f := v.e, g := v.f, h := v.g }

/-- The rounds, with a window of 16 schedule words. -/
def shaRounds : List Nat → List Word → ShaVars → ShaVars
  | [], _, v => v
  | k :: ks, w, v =>
    shaRounds ks (w.drop 1 ++ [schedNext w]) (shaRound v (BitVec.ofNat 32 k) (nth 0 w 0))

/-- One block of 64 bytes. -/
def shaBlock (h : List Word) (bs : List Byte) : List Word :=
  let w := (chunks 4 16 bs).map fun b => BitVec.ofNat 32 (beNat b)
  let v := shaRounds shaK w (shaVars h)
  List.zipWith (· + ·) h [v.a, v.b, v.c, v.d, v.e, v.f, v.g, v.h]

/-- The padding of a message of `n` bytes. -/
def shaPad (n : Nat) : List Byte :=
  0x80 :: List.replicate ((119 - n % 64) % 64) 0 ++ beBytes 8 (8 * n)

/-- SHA-256 as the 256-bit number whose most significant byte is byte 0. -/
def sha256 (bs : List Byte) : Digest :=
  let m := bs ++ shaPad bs.length
  let h := (chunks 64 (m.length / 64) m).foldl shaBlock shaInit
  h.foldl (fun d w => (d <<< 32) ||| w.setWidth 256) 0

/-! ### HMAC (RFC 2104) -/

def hmacKey (key : List Byte) : List Byte :=
  let k := if 64 < key.length then digestBytes (sha256 key) else key
  k ++ List.replicate (64 - k.length) 0

def hmac (key msg : List Byte) : Digest :=
  let k := hmacKey key
  sha256 (k.map (· ^^^ 0x5C) ++ digestBytes (sha256 (k.map (· ^^^ 0x36) ++ msg)))

/-! ### The Merkle root (R281) -/

def leafHash (bs : List Byte) : Digest := sha256 (0x00 :: bs)

def nodeHash (a b : Digest) : Digest := sha256 (0x01 :: digestBytes a ++ digestBytes b)

/-- One level: pairs combined, an odd last one unchanged. -/
def pairUp : List Digest → List Digest
  | a :: b :: r => nodeHash a b :: pairUp r
  | l => l

/-- Levels combined, at most `n` of them. -/
def merkleLevels : Nat → List Digest → Digest
  | 0, l => l.headD 0
  | n + 1, l => if l.length ≤ 1 then l.headD 0 else merkleLevels n (pairUp l)

def merkleRoot (leaves : List Digest) : Digest := merkleLevels leaves.length leaves

/-! ### CRC-64 (R358) -/

def crcPoly : DWord := 0x42F0E1EBA9EA3693

def crcStep (c : DWord) : DWord := if c.msb then (c <<< 1) ^^^ crcPoly else c <<< 1

def crcByte (c : DWord) (b : Byte) : DWord :=
  let c := c ^^^ (b.setWidth 64 <<< 56)
  crcStep (crcStep (crcStep (crcStep (crcStep (crcStep (crcStep (crcStep c)))))))

/-- CRC-64, ECMA-182: initial value and final XOR all ones. -/
def crc64 (bs : List Byte) : DWord := ~~~(bs.foldl crcByte (BitVec.allOnes 64))

/-! ### RSASSA-PSS (RFC 8017), 3072 bits, SHA-256, MGF1-SHA-256, 32-byte salt (R446) -/

/-- b ^ e mod m, over `n` bits of the exponent from bit 0. -/
def powMod (m : Nat) : Nat → Nat → Nat → Nat → Nat
  | 0, _, _, r => r
  | n + 1, b, e, r => powMod m n (b * b % m) (e / 2) (if e % 2 = 1 then r * b % m else r)

def mgf1 (seed : List Byte) (n : Nat) : List Byte :=
  ((List.range ((n + 31) / 32)).flatMap fun i => digestBytes (sha256 (seed ++ beBytes 4 i))).take n

/-- EMSA-PSS verification of an encoded message of 384 bytes, of which 3,071 bits count. -/
def pssCheck (hash : Digest) (em : List Byte) : Bool :=
  let db := em.take 351
  let h := (em.drop 351).take 32
  let x := List.zipWith (· ^^^ ·) db (mgf1 h 351)
  let x := (x.headD 0 &&& 0x7F) :: x.tail
  (db.headD 0 &&& 0x80) == 0 && em.drop 383 == [0xBC] &&
  x.take 318 == List.replicate 318 0 && (x.drop 318).headD 0 == 0x01 &&
  digestBytes (sha256 (List.replicate 8 0 ++ digestBytes hash ++ x.drop 319)) == h

/-- The signature over `msg` verifies under the public key. -/
def pssVerify (modulus exponent : Nat) (msg sig : List Byte) : Bool :=
  let s := beNat sig
  decide (s < modulus) && pssCheck (sha256 msg) (beBytes 384 (powMod modulus 64 s exponent 1))

end Sys2Proof.Machine
end

