-- ==== Sys2Proof/Machine/Fabric.lean ====
section
/-! DEFINITION. Packets, routes, windows and requests, the transmit queues of the links, priority flits and management messages (11 R354, R359, R362; 12 R383 to R390, R394). -/

namespace Sys2Proof.Machine

open Sys2Proof

/-! ### Device identifiers and the plan (R380, R381) -/

def devGroup (d : Nat) : Nat := bits d 22 12
def devX (d : Nat) : Nat := bits d 11 6
def devY (d : Nat) : Nat := bits d 5 0

/-- The committed plan; an empty one where none is in force. -/
def commonOf (s : State) : PlanCommon := match s.fab.plan with
  | some p => p.1
  | none => {}
def devicePlan (s : State) : PlanDevice := match s.fab.plan with
  | some p => p.2
  | none => {}

/-- The G table entries of a pair of groups. -/
def gPairOf (c : PlanCommon) (a b : Nat) : List GEntry :=
  match c.gTable.find? fun p => p.a == min a b && p.b == max a b with
  | some p => p.entries
  | none => []

/-- Indices of the entries that are not spare. -/
def gUsable (c : PlanCommon) (a b : Nat) : List Nat :=
  ((gPairOf c a b).zipIdx.filter fun p => !p.1.spare).map (·.2)

/-- The endpoint of a G entry in group `g`, of the pair (g, t). -/
def gEndpoint (c : PlanCommon) (g t i : Nat) : Option (Nat × Nat) :=
  match (gPairOf c g t)[i]? with
  | some e => some (if g ≤ t then (e.devA, e.linkA) else (e.devB, e.linkB))
  | none => none

/-! ### Links -/

/-- Link numbers: X 0 to 6, Y 7 to 13, G 14 to 35 (R376). -/
def linkCount : Nat := 36

/-- The port queues a packet of this device on a VC: its operating set in UP, which a retrain keeps, VC0 in
QUARANTINE and in FENCED with its lanes on (table before R343, R354, R371). -/
def carries (l : Link) (vc : Nat) : Bool :=
  match l.state with
  | .up => l.vcOper.getLsbD vc
  | .retrain => l.vcOper.getLsbD vc
  | .quarantine => vc == 0
  | .fenced => vc == 0 && !l.lanesOff
  | _ => false

/-- The link takes a packet in transit: it is UP and the VC is in its operating set (R387). -/
def passesOn (l : Link) (vc : Nat) : Bool := l.state == .up && l.vcOper.getLsbD vc

def linkUp (s : State) (n : Nat) : Bool := (linkAt s n).state == .up

/-! ### Packets (table before R383) and flits (R357, R359) -/

/-- The 32 bytes of a packet header. -/
def packetHeader (p : Packet) : List Byte :=
  leBytes 8 (p.version % 256 + p.ptype % 16 * 2 ^ 8 + p.stage % 4 * 2 ^ 12 + p.dst % 2 ^ 24 * 2 ^ 16 +
    p.src % 2 ^ 24 * 2 ^ 40) ++
  leBytes 8 (p.via % 2 ^ 11 + p.gsel0 % 8 * 2 ^ 11 + p.gsel1 % 8 * 2 ^ 14 + p.slot % 4096 * 2 ^ 17 +
    p.tag % 4096 * 2 ^ 29 + p.epoch % 256 * 2 ^ 41 + b2n p.lastPkt * 2 ^ 49) ++
  leBytes 8 (p.len % 8192 + p.vx % 64 * 2 ^ 13 + p.vy % 64 * 2 ^ 19 + p.status % 8 * 2 ^ 25) ++
  leBytes 8 (p.addr % 2 ^ 48)

/-- The packet that payload bytes spell. -/
def packetOf (vc pkey : Nat) (bs : List Byte) : Packet :=
  let w := fun i => leNat ((bs.drop (8 * i)).take 8)
  { vc := vc, pkey := pkey, version := bits (w 0) 7 0, ptype := bits (w 0) 11 8
    stage := bits (w 0) 13 12, dst := bits (w 0) 39 16, src := bits (w 0) 63 40
    via := bits (w 1) 10 0, gsel0 := bits (w 1) 13 11, gsel1 := bits (w 1) 16 14
    slot := bits (w 1) 28 17, tag := bits (w 1) 40 29, epoch := bits (w 1) 48 41
    lastPkt := bit (w 1) 49, len := bits (w 2) 12 0, vx := bits (w 2) 18 13, vy := bits (w 2) 24 19
    status := bits (w 2) 27 25, addr := bits (w 3) 47 0, data := (bs.drop 32).take (bits (w 2) 12 0) }

/-- Flits of a packet from its payload pieces, `first` while none has been made. -/
def cutFlits (base : TxFlit) (first : Bool) : List (List Byte) → List TxFlit
  | [] => []
  | [b] => [{ base with kind := if first then 4 else 3, words := (b.length + 7) / 8, data := b }]
  | b :: bs => { base with kind := if first then 1 else 2, words := (b.length + 7) / 8, data := b } ::
      cutFlits base false bs

/-- The flits of a packet. -/
def packetFlits (p : Packet) (own : Bool) (flow : Nat) : List TxFlit :=
  let bs := packetHeader p ++ p.data
  cutFlits { vc := p.vc, pkey := p.pkey, flow := flow, isOwn := own, discard := p.discard } true
    (chunks 224 ((bs.length + 223) / 224) bs)

/-- Flits put at the end of a transmit queue. -/
def enqueue (l : Link) (vc : Nat) (fs : List TxFlit) : Link :=
  { l with queue := put [] l.queue vc (look [] l.queue vc ++ fs) }

/-- A drop under R387, counted. -/
def countDrop (s : State) (link : Option Nat) : State :=
  let f := { s.fab with dropRoute := satInc 16 s.fab.dropRoute }
  match link with
  | some n => { s with fab := { f with
      cong := upd {} f.cong n fun c => { c with drops := satInc 16 c.drops } } }
  | none => { s with fab := f }

/-- A flit or packet with a foreign key, dropped and counted (R387, R395). -/
def countForeign (s : State) : State :=
  { s with fab := { s.fab with foreign := satInc 16 s.fab.foreign
                               congForeign := satInc 16 s.fab.congForeign } }

/-- The key is foreign on a VC (R395). -/
def foreignKey (s : State) (vc key : Nat) : Bool :=
  key != s.fab.pkey && !(vc == 0 && key == 0xFFFF)

/-! ### Routing (R385, R386) -/

/-- The mixing function of R385. -/
def routeMix (src dst vc ctr : Nat) : Nat :=
  let m := 2 ^ 64
  let x := (src <<< 40) ^^^ (dst <<< 16) ^^^ (vc <<< 13)
  let x := x % m ^^^ (ctr * 0x9E3779B97F4A7C15 % m)
  let x := (x ^^^ (x >>> 33)) * 0xFF51AFD7ED558CCD % m
  let x := (x ^^^ (x >>> 33)) * 0xC4CEB9FE1A85EC53 % m
  x ^^^ (x >>> 33)

/-- VIA, STAGE, GSEL0 and GSEL1 of an unscheduled packet (R385). -/
def selectRoute (c : PlanCommon) (ctr : Nat) (p : Packet) : Packet :=
  let x := routeMix p.src p.dst p.vc ctr
  let sg := devGroup p.src
  let dg := devGroup p.dst
  let others := c.groups.filter fun g => g != sg && g != dg
  let m := others.length
  let pick := fun a b (i : Nat) =>
    let u := gUsable c a b
    nth 0 u ((i * u.length) >>> 16)
  if sg = dg ∨ m = 0 then
    { p with via := 0x7FF, stage := 1, gsel0 := 0
             gsel1 := if sg = dg then 0 else pick sg dg (bits x 63 48) }
  else
    let via := nth 0 others ((bits x 31 0 * m) >>> 32)
    { p with via := via, stage := 0, gsel0 := pick sg via (bits x 47 32)
             gsel1 := pick via dg (bits x 63 48) }

/-- Where a packet goes next. -/
inductive Hop where
  | deliver
  | link (n : Nat)
  | lost
  deriving DecidableEq, Repr

/-- The hop within the group toward device `t`. -/
def localHop (d t : Nat) : Hop :=
  if devX d ≠ devX t then .link ((devX t + 15 - devX d) % 8)
  else if devY d ≠ devY t then .link (7 + (devY t + 15 - devY d) % 8)
  else .lost

/-- The stage of an unscheduled packet at device `d`. -/
def stageAt (d : Nat) (p : Packet) : Packet :=
  if p.stage = 0 ∧ devGroup d = p.via then { p with stage := 1 } else p

/-- The next hop of an unscheduled packet at device `d` (R386). -/
def nextHop (c : PlanCommon) (d : Nat) (p : Packet) : Hop :=
  let tg := if p.stage = 0 then p.via else devGroup p.dst
  if devGroup d ≠ tg then
    match gEndpoint c (devGroup d) tg (if p.stage = 0 then p.gsel0 else p.gsel1) with
    | none => .lost
    | some (e, gl) => if d = e then .link (14 + gl) else localHop d e
  else if d = p.dst then .deliver
  else localHop d p.dst

/-! ### Requests (R390) -/

def tagAt (s : State) (t : Nat) : Tag := look {} s.fab.tags t
def setTag (s : State) (t : Nat) (x : Tag) : State :=
  { s with fab := { s.fab with tags := put {} s.fab.tags t x } }

/-- A request settled without a response: its tag's epoch goes up (R390). -/
def failTag (s : State) (t status : Nat) : State :=
  let x := tagAt s t
  if x.busy then
    setTag s t { x with busy := false, epoch := (x.epoch + 1) % 256, result := some status, data := [] }
  else s

/-- Every outstanding request whose first hop is link `n`, completed with LINK_DOWN. -/
def failTagsOf (s : State) (n : Nat) : State :=
  { s with fab := { s.fab with tags := s.fab.tags.map fun p =>
      if p.2.busy ∧ p.2.first = n then
        (p.1, { p.2 with busy := false, epoch := (p.2.epoch + 1) % 256
                         result := some stLinkDown, data := [] })
      else p } }

/-! ### Injection (R354, R384, R385, R387, R389) -/

/-- The unscheduled window in bytes (R389, R407). -/
def unschedWindow (s : State) : Nat :=
  (if s.fab.unsched = 0 then 1 else min s.fab.unsched 64) * 16384

/-- The packet takes unscheduled window space. -/
def windowed (p : Packet) : Bool := p.vc != 1 && (p.ptype == 1 || p.ptype == 4)

def windowKey (dst vc : Nat) : Nat := 8 * dst + vc

/-- An own packet put on its first link; where the link does not take it, it is dropped, and a request
completes with LINK_DOWN (R354, R387). -/
def putOnLink (s : State) (p : Packet) (n flow : Nat) : State :=
  if carries (linkAt s n) p.vc then
    updLink s n fun l => enqueue l p.vc (packetFlits p true flow)
  else
    let s := countDrop s (some n)
    if p.ptype = 2 ∨ p.ptype = 4 then failTag s p.tag stLinkDown else s

/-- The pair links of the committed plan (R332). -/
def pairLinks (s : State) : List Nat :=
  (List.range linkCount).filter fun n => match (devicePlan s).links[n]? with
    | some e => e.pair
    | none => false

/-- The hop of a packet to the partner, whose identifier differs in bit [23] alone: over a pair link, which
carries VC0 as a hedge (R332, R395), and over no other. DESIGN CHOICE (log 97): the lowest-numbered one that
carries VC0. -/
def pairHop (s : State) : Hop :=
  match (pairLinks s).find? (fun n => carries (linkAt s n) 0), pairLinks s with
  | some n, _ => .link n
  | none, n :: _ => .link n
  | none, [] => .lost

/-- The first hop of an unscheduled packet of this device. -/
def firstHop (s : State) (p : Packet) : Hop :=
  if p.dst = s.fab.id ^^^ 2 ^ 23 then pairHop s else nextHop (commonOf s) s.fab.id p

/-- An unscheduled packet that the window admits: its route is fixed, it is counted and sent. -/
def launchPacket (s : State) (p : Packet) : State :=
  let k := windowKey p.dst p.vc
  let ctr := look 0 s.fab.ctr k % 2 ^ 32
  let p := stageAt s.fab.id (selectRoute (commonOf s) ctr p)
  let s := { s with fab := { s.fab with ctr := put 0 s.fab.ctr k ((ctr + 1) % 2 ^ 32) } }
  match firstHop s p with
  | .link n =>
    let s := if windowed p && carries (linkAt s n) p.vc then
        { s with fab := { s.fab with
            used := upd 0 s.fab.used k (· + p.len)
            hops := upd 0 s.fab.hops k (· ||| BitVec.ofNat 36 (2 ^ n)) } }
      else s
    let s := if p.ptype = 2 ∨ p.ptype = 4 then
        setTag s p.tag { tagAt s p.tag with first := n } else s
    putOnLink s p n 0
  | _ =>
    let s := countDrop s none
    if p.ptype = 2 ∨ p.ptype = 4 then failTag s p.tag stLinkDown else s

/-- An unscheduled packet of this device: sent, or held while its window is full. -/
def inject (s : State) (p : Packet) : State :=
  let k := windowKey p.dst p.vc
  if windowed p && ((s.fab.waiting.any fun q => windowKey q.dst q.vc == k) ||
      decide (unschedWindow s < look 0 s.fab.used k + p.len)) then
    { s with fab := { s.fab with waiting := s.fab.waiting ++ [p] } }
  else launchPacket s p

/-- Held packets tried again in order. -/
def releaseWaiting (s : State) : State :=
  s.fab.waiting.foldl inject { s with fab := { s.fab with waiting := [] } }

/-- The windows whose outstanding packets left on link `n`, reset (R389). -/
def resetWindowsOf (s : State) (n : Nat) : State :=
  let hit := fun k => (look 0 s.fab.hops k).getLsbD n
  releaseWaiting { s with fab := { s.fab with
    used := s.fab.used.filter fun p => !hit p.1
    hops := s.fab.hops.filter fun p => !hit p.1 } }

/-- A free tag, the lowest. -/
def freeTag (s : State) : Option Nat := least (fun t => !(tagAt s t).busy) 4096

/-- A request issued under a free tag; where all are outstanding, or others wait before it, it waits for one.
`load`: it is the load path's. -/
def issueRequest (s : State) (p : Packet) (load : Bool) : State :=
  match freeTag s with
  | some t =>
    if s.fab.reqWait.isEmpty then
      let x := tagAt s t
      let s := setTag s t { x with busy := true, since := now s, load := load, result := none, data := [] }
      inject s { p with tag := t, epoch := x.epoch }
    else { s with fab := { s.fab with reqWait := s.fab.reqWait ++ [(p, load)] } }
  | none => { s with fab := { s.fab with reqWait := s.fab.reqWait ++ [(p, load)] } }

/-! ### DATA of a SEND to another device (R384, R385) -/

/-- The packets of a message, in ascending address order. -/
def cutPackets (base : Packet) : List (List Byte) → List Packet
  | [] => []
  | [b] => [{ base with len := b.length, data := b, lastPkt := true }]
  | b :: bs => { base with len := b.length, data := b } :: cutPackets base bs

def messagePackets (base : Packet) (bs : List Byte) : List Packet :=
  cutPackets base (chunks 4096 ((bs.length + 4095) / 4096) bs)

/-- The source flow of a slot, where the plan has a valid one: its first link (R384). -/
def flowLink (s : State) (slot : Nat) : Option Nat :=
  let f := look 0 (devicePlan s).flows slot
  if f.getLsbD 15 then some (f.toNat % 64) else none

/-- A message to another device: scheduled packets on their flow's first link, others by R385. -/
def sendMessage (s : State) (base : Packet) (bs : List Byte) : State :=
  if base.vc = 1 then
    match flowLink s base.slot with
    | some n => (messagePackets base bs).foldl (fun s p => putOnLink s p n (0x4000 + base.slot)) s
    | none => s
  else (messagePackets base bs).foldl inject s

/-! ### Priority flits (R362) -/

/-- The four types of priority flit. -/
inductive PrioKind where
  | hold | stop | cancel | beacon
  deriving DecidableEq, Repr

/-- A priority flit that comes to a port: HOLD, STOP and CANCEL go twice (R362). -/
def queuePrio (l : Link) (k : PrioKind) (p : Prio) : Link :=
  match k with
  | .stop => match l.prio.stop with
    | some _ => l
    | none => { l with prio := { l.prio with stop := some (p, 2) } }
  | .cancel => match l.prio.cancel with
    | some _ => l
    | none => { l with prio := { l.prio with cancel := some (p, 2) } }
  | .hold => match l.prio.hold with
    | none => { l with prio := { l.prio with hold := some (p, 2) } }
    | some (q, _) =>
      if p.stroke = q.stroke ∧ q.round < p.round ∨ q.stroke ≠ p.stroke then
        { l with prio := { l.prio with hold := some (p, 2) } }
      else l
  | .beacon => { l with prio := { l.prio with beacon := some p } }

/-- A priority flit flooded on every link in UP but the one it came by (R198, R363). -/
def flood (s : State) (k : PrioKind) (p : Prio) (from_ : Option Nat) : State :=
  (List.range linkCount).foldl (fun s n =>
    if some n ≠ from_ ∧ linkUp s n then updLink s n fun l => queuePrio l k p else s) s

/-- A priority flit of this device. -/
def ownPrio (s : State) : Prio :=
  { pkey := s.fab.pkey, epoch := s.prog.epoch, origin := s.fab.id }

/-! ### Management messages sent (R394) -/

def mtLaunch : Nat := 0x10
def mtLaunchAnswer : Nat := 0x11
def mtResponse : Nat := 0x09
def mtAbort : Nat := 0x12
def mtReady : Nat := 0x13
def mtVerdict : Nat := 0x14
def mtDrained : Nat := 0x15
def mtLeafHashes : Nat := 0x16
def mtManifest : Nat := 0x17
def mtPair : Nat := 0x18
def mtCongMap : Nat := 0x20

/-- The bytes of a message's body. DESIGN CHOICE: where the manual gives a body no layout they are a free value
(log 79). -/
def mgmtBody (m : MgmtOut) : List Byte := if m.bytes = [] then Config.mgmtBody m else m.bytes

/-- The session has not missed its heartbeat. PRESUMED (log 98): SPDM ends a session in which two periods pass without a
request. -/
def sessionLives (s : State) (x : Session) : Bool := x.period == 0 || decide (now s ≤ x.since + 2 * x.period)

/-- The SPDM session of an identifier (14 R451). -/
def sessionOf (s : State) (id : Nat) : Option Session :=
  s.stl.sessions.find? fun x => x.id == id && sessionLives s x

/-- The label "gewen mgmt" (14 R453). -/
def mgmtLabel : List Byte := [0x67, 0x65, 0x77, 0x65, 0x6E, 0x20, 0x6D, 0x67, 0x6D, 0x74]

/-- HKDF-Expand to 32 bytes with SHA-256: one block. DEDUCED (log 100): the label is the whole of the info. -/
def hkdfExpand32 (prk : Digest) (info : List Byte) : Digest := hmac (digestBytes prk) (info ++ [0x01])

/-- The key that a session names (R394; 14 R453). -/
def mgmtKey (s : State) (session : Nat) : Digest :=
  if session = 0 then s.fab.partKey.getD 0
  else if session = 1 then s.fab.pairKey.getD 0
  else match sessionOf s session with
    | some x => hkdfExpand32 x.ems mgmtLabel
    | none => 0

/-- The key is held. -/
def keyHeld (s : State) (session : Nat) : Bool :=
  if session = 0 then s.fab.partKey.isSome
  else if session = 1 then s.fab.pairKey.isSome
  else (sessionOf s session).isSome

/-- The two words of a management header. -/
def mgmtHead (ver mtype session n : Nat) : List Byte :=
  leBytes 8 (ver % 256 + mtype % 256 * 2 ^ 8 + session % 2 ^ 32 * 2 ^ 32) ++ leBytes 8 n

/-- The MAC over header and body under a session's key. -/
def mgmtMac (s : State) (session : Nat) (bs : List Byte) : Digest := hmac (digestBytes (mgmtKey s session)) bs

/-- The management header of a message with number `n`, then its body. -/
def mgmtBytes (s : State) (m : MgmtOut) (n : Nat) : List Byte :=
  let h := mgmtHead 1 m.mtype m.session n
  h ++ digestBytes (mgmtMac s m.session (h ++ mgmtBody m)) ++ mgmtBody m

/-- A message that answers one: the stile's, which gives none unless it runs (14 R445). -/
def answersMgmt (mtype : Nat) : Bool := mtype == mtResponse || mtype == mtLaunchAnswer

/-- The packet of a message. DESIGN CHOICE (log 79): messages between members carry the partition's key, others
the management key. -/
def mgmtPacket (s : State) (m : MgmtOut) (n : Nat) : Packet :=
  let bs := mgmtBytes s m n
  { vc := 0, pkey := if m.session = 0 then s.fab.pkey else 0xFFFF, ptype := 6, dst := m.dst, src := s.fab.id
    lastPkt := true, len := bs.length, data := bs }

/-- A message sent, as a record of its content and as an MGMT packet on VC0 (R393, R394). None is sent under an SPDM
session that has ended. -/
def sendMgmt (s : State) (m : MgmtOut) : State :=
  if (answersMgmt m.mtype && s.stl.state != 1) || (decide (2 ≤ m.session) && !keyHeld s m.session) then s
  else
  let n := s.fab.mgmtSeq + 1
  let s := { s with fab := { s.fab with mgmtOut := m :: s.fab.mgmtOut, mgmtSeq := n } }
  if m.dst = s.fab.id then s else inject s (mgmtPacket s m n)

/-- A message to every other member of the partition. -/
def sendMembers (s : State) (m : MgmtOut) : State :=
  ((commonOf s).ranks.filter (· != s.fab.id)).foldl (fun s d => sendMgmt s { m with dst := d }) s

end Sys2Proof.Machine
end

