-- ==== Sys2Proof/Machine/ProofOps.lean ====
section
/-! DEFINITION. Proofs, impressions, the chain, the host rings of proofs and records, and the completions that wait for them (10 R319 to R329, R334, R512; 13 R429). -/

namespace Sys2Proof.Machine

open Sys2Proof

/-! ### Device memory for the engine -/

/-- Bytes written to DDR by the engine or the stile. -/
def ddrWrite (s : State) (a : Nat) (bs : List Byte) : State := setDdr s (memPut s.memory.ddr a bs)

/-- Words in error on a read raise their channel's score (R151). -/
def scoreRead (s : State) (a n : Nat) : State :=
  let hits := (correctedWords s.memory.ddr a n).map (fun w => (8 * w, false)) ++
    (badWords s.memory.ddr a n).map fun w => (8 * w, true)
  noteErrors s s.memory hits

/-! ### Bytes of proofs and records -/

def dwBytes (n : Nat) : List Byte := leBytes 8 n

/-- A proof (table of R319). -/
def proofBytes (p : Proof) : List Byte :=
  dwBytes (0x01 + p.status % 256 * 2 ^ 8 + p.grid % 16 * 2 ^ 16 + b2n p.explain * 2 ^ 20 +
    b2n p.late * 2 ^ 21 + b2n p.paired * 2 ^ 22 + b2n p.batch * 2 ^ 23 + p.devices % 2 ^ 24 * 2 ^ 24 +
    p.swapCount % 2 ^ 16 * 2 ^ 48) ++
  dwBytes p.tag.toNat ++ dwBytes p.seed.toNat ++ dwBytes p.first ++ dwBytes p.last ++
  dwBytes (p.slot % 8 + b2n p.adapter * 8) ++
  dwBytes (p.device % 2 ^ 24 + p.leaf % 2 ^ 32 * 2 ^ 32) ++ dwBytes (p.tokens % 2 ^ 32) ++
  digestBytes p.image ++ digestBytes p.root ++ digestBytes p.adDigest ++ digestBytes p.prompt ++
  digestBytes p.output ++
  (((p.swaps ++ List.replicate 4 0#64).take 4).flatMap fun (w : DWord) => dwBytes w.toNat)

/-- The neutral form (R320) that impressions use: PAIRED and DEVICE zero. -/
def neutralForm (p : Proof) : Proof := { p with paired := false, device := 0 }

def neutralHash (p : Proof) : Digest := leafHash (proofBytes (neutralForm p))

/-- The hash that orders the leaves of an impression (R325): that of the neutral form before its LEAF, the
position in this order, is set (DEDUCED, log 58). -/
def orderHash (p : Proof) : Digest := neutralHash { p with leaf := 0 }

/-- A proof put in its place among proofs in ascending order of leaf hash (R325). -/
def insertByHash (p : Proof) : List Proof → List Proof
  | [] => [p]
  | q :: qs => if orderHash p < orderHash q then p :: q :: qs else q :: insertByHash p qs

def sortByHash (ps : List Proof) : List Proof := ps.foldr insertByHash []

/-- The proofs with their LEAF positions. -/
def placeLeaves (ps : List Proof) : List Proof :=
  (sortByHash ps).zipIdx.map fun p => { p.1 with leaf := p.2 }

/-- The impression of a step's proofs (R325). -/
def impression (ps : List Proof) : Digest :=
  if ps.isEmpty then 0 else merkleRoot ((placeLeaves ps).map neutralHash)

/-- The digest of the model slots (table of R326). -/
def slotsDigest (s : State) : Digest :=
  sha256 ((List.range 8).flatMap fun n =>
    let x := slotAt s n
    if x.state = .empty then List.replicate 34 0 else digestBytes x.root ++ leBytes 2 x.epoch)

/-- The first 96 bytes of a chain record. -/
def chainBody (s : State) (batch : Bool) (devices step count : Nat) (imp : Digest) : List Byte :=
  dwBytes (0x01 + 0x1 * 2 ^ 8 + s.prog.grid % 16 * 2 ^ 12 + b2n batch * 2 ^ 16 +
    devices % 2 ^ 24 * 2 ^ 24) ++
  dwBytes step ++ dwBytes (count % 2 ^ 32) ++ dwBytes 0 ++ digestBytes (slotsDigest s) ++ digestBytes imp

/-- The first 128 bytes of the signed record of a head (R327). -/
def signedBody (s : State) (h : HeadDue) : List Byte :=
  dwBytes (0x01 + 0x2 * 2 ^ 8 + s.prog.grid % 16 * 2 ^ 12 + h.devices % 2 ^ 24 * 2 ^ 24) ++
  dwBytes h.step ++ dwBytes (s.fab.id % 2 ^ 24) ++ dwBytes Config.identity.toNat ++
  digestBytes h.head ++ digestBytes s.prog.digest ++ List.replicate 32 0

/-- A signature of 384 bytes. -/
def signatureBytes (s : State) (body : List Byte) : List Byte :=
  (Config.signature s.free body ++ List.replicate 384 0).take 384

/-! ### The proof store (R323) -/

def storeEntries (s : State) : Nat := 8 * s.proofs.size

/-- The address of proof number `q`. -/
def storeAddr (s : State) (q : Nat) : Nat :=
  let e := q % max 1 (storeEntries s)
  s.proofs.base * 4096 + e / 8 * 4096 + e % 8 * 256

/-- The entry of proof `q` holds no proof that has still to reach the host ring. -/
def storeFree (s : State) (q : Nat) : Bool :=
  !(s.proofs.store.any fun x => x.placed && x.inRing.isNone && !x.lost && x.q != q &&
    x.q % max 1 (storeEntries s) == q % max 1 (storeEntries s))

/-- A proof written to its entry and to its copy. -/
def writeStored (s : State) (x : Stored) : State :=
  let a := storeAddr s x.q
  ddrWrite (ddrWrite s a (proofBytes x.proof)) (a + 2048) (proofBytes x.proof)

/-- Proofs not yet in the store, written in order over entries that may be overwritten. -/
def placeAll (s : State) : List Stored → State × List Stored
  | [] => (s, [])
  | x :: xs =>
    if x.placed then
      let (s, r) := placeAll s xs
      (s, x :: r)
    else if storeFree s x.q && storeEntries s != 0 then
      let y := { x with placed := true }
      let (s, r) := placeAll (writeStored s y) xs
      (s, y :: r)
    else (s, x :: xs)

def placeProofs (s : State) : State :=
  let (s, l) := placeAll s s.proofs.store
  { s with proofs := { s.proofs with store := l } }

/-! ### Host rings (R324) -/

def proofRingEntries (s : State) : Nat := 16 * s.proofs.pSize
def recordRingEntries (s : State) : Nat := 32 * s.proofs.iSize

/-- Entries of a host ring not consumed. -/
def unconsumed (done head : Nat) : Nat := (done % 2 ^ 32 + 2 ^ 32 - head % 2 ^ 32) % 2 ^ 32

def proofRoom (s : State) : Bool :=
  decide (unconsumed s.proofs.pDone s.proofs.pHead < proofRingEntries s)

def recordRoom (s : State) (k : Nat) : Bool :=
  decide (unconsumed s.proofs.iDone s.proofs.iHead + k ≤ recordRingEntries s)

/-- The proof waits for its step's heads to be compared (R334). -/
def awaitsPair (s : State) (x : Stored) : Bool :=
  s.proofs.pairState == 1 && decide (s.proofs.matched < x.proof.last)

/-- A proof read back from the store, word by word from the copy that can be corrected (R157); none
where both copies of a word are uncorrectable. -/
def readStored (s : State) (a : Nat) : Nat → Option (List Byte)
  | 0 => some []
  | n + 1 =>
    let b := if badWords s.memory.ddr a 8 = [] then some (memGet s.memory.ddr a 8)
      else if badWords s.memory.ddr (a + 2048) 8 = [] then some (memGet s.memory.ddr (a + 2048) 8)
      else none
    match b, readStored s (a + 8) n with
    | some b, some r => some (b ++ r)
    | _, _ => none

/-- The words of a stored proof's duplicate that are read: those whose first copy is uncorrectable (R157). -/
def dupReads (s : State) (a n : Nat) : List Nat :=
  ((List.range n).map fun i => a + 8 * i).filter fun b => badWords s.memory.ddr b 8 != []

/-- The stored proof replaced in the list. -/
def updStored (s : State) (q : Nat) (f : Stored → Stored) : State :=
  { s with proofs := { s.proofs with
      store := s.proofs.store.map fun x => if x.q = q then f x else x } }

/-- A proof copied to the host proof ring, or found lost. -/
def copyProof (s : State) (x : Stored) : State :=
  let a := storeAddr s x.q
  let r := readStored s a 32
  let dup := dupReads s a 32
  let s := dup.foldl (fun s b => scoreRead s (b + 2048) 8) (scoreRead s a 256)
  match r with
  | none => updStored s x.q fun x => { x with lost := true }
  | some bs =>
    let e := s.proofs.pDone % max 1 (proofRingEntries s)
    let s := hostWrite s (s.proofs.pBase * 4096 + 256 * e) bs
    let s := updStored s x.q fun x => { x with inRing := some e }
    { s with proofs := { s.proofs with pDone := s.proofs.pDone + 1 } }

/-- The oldest proof that is in the store and not yet copied. -/
def nextCopy (s : State) : Option Stored :=
  s.proofs.store.find? fun x => x.placed && x.inRing.isNone && !x.lost

/-- One waiting proof copied, where the ring has room and its pair comparison is done. -/
def copyOne (s : State) : Option State :=
  match nextCopy s with
  | some x =>
    if proofRoom s && !awaitsPair s x then some (placeProofs (copyProof s x)) else none
  | none => none

/-! ### PROOF_READY (R329) -/

/-- PROOF_READY for a proof. -/
def proofReadyWords (s : State) (x : Stored) : List DWord :=
  compWords (compWord0 ctProof (if x.lost then stPoisoned else stOK) x.who.sring x.req x.who.op)
    x.who.tag [dw x.proof.last, dw (x.inRing.getD 0), dw s.proofs.inRing]

/-- The proof's PROOF_READY is due. It follows the request's REQUEST_DONE. -/
def readyDue (s : State) (x : Stored) : Bool :=
  !x.ready && !x.proof.batch && (x.inRing.isSome || x.lost) && decide (x.proof.last ≤ s.proofs.inRing) &&
  decide (x.proof.last ≤ s.srv.jrnDone) && !s.proofs.gated.any fun d => d.step == x.proof.last

/-- PROOF_READY written for every proof that a signed record in the ring now covers. -/
def readyAll (s : State) : List Stored → State × List Stored
  | [] => (s, [])
  | x :: xs =>
    if readyDue s x then
      let (s, r) := readyAll (answer s x.who (proofReadyWords s x)) xs
      (s, { x with ready := true } :: r)
    else
      let (s, r) := readyAll s xs
      (s, x :: r)

/-- A stored proof with nothing left to do. -/
def storedDone (x : Stored) : Bool := x.ready && (x.inRing.isSome || x.lost)

def proofReadies (s : State) : State :=
  let (s, l) := readyAll s s.proofs.store
  { s with proofs := { s.proofs with store := l.filter fun x => !storedDone x } }

/-! ### PROGRAM_DONE (R428, R429, R512) -/

/-- PROGRAM_DONE with its words; a batch program's proof stands in words 5. -/
def progDoneWords (s : State) (d : DoneRec) : List DWord :=
  let p := s.proofs.store.find? fun x => x.proof.batch && x.inRing.isSome
  let w5 := match p with
    | some x => x.inRing.getD 0 + 2 ^ 32
    | none => 0
  compWords (compWord0 ctProgDone d.status s.prog.asker.sring 0 s.prog.asker.op) s.prog.asker.tag
    [dw (d.strokes % 2 ^ 32),
     dw (d.code % 256 + d.cause % 16 * 2 ^ 8 + d.origin % 2 ^ 24 * 2 ^ 12 + d.heath % 64 * 2 ^ 36),
     dw d.gtc, dw w5]

/-- The batch proof has reached its ring, is lost, or there is none. -/
def batchSettled (s : State) : Bool :=
  !(s.proofs.store.any fun x => x.proof.batch && x.inRing.isNone && !x.lost)

/-- The PROGRAM_DONE that waits is written once its signed record is in the ring, its proof is settled
and, in a pair, its heads have been compared. -/
def finishDone (s : State) (signed : Option Nat) : State :=
  match s.proofs.waitDone with
  | none => s
  | some d =>
    if (d.unsigned || signed == some d.step || (d.step != 0 && decide (d.step ≤ s.proofs.inRing))) &&
        batchSettled s && !(s.proofs.pairState == 1 && !s.proofs.ownHeads.isEmpty) then
      let s := answer s s.prog.asker (progDoneWords s d)
      { s with proofs := { s.proofs with
          waitDone := none, store := s.proofs.store.filter fun x => !x.proof.batch } }
    else s

/-! ### The host impression ring -/

/-- Pieces of 128 bytes written to consecutive entries. -/
def writeRecordEntries (s : State) : List (List Byte) → State
  | [] => s
  | b :: bs =>
    let e := s.proofs.iDone % max 1 (recordRingEntries s)
    let s := hostWrite s (s.proofs.iBase * 4096 + 128 * e) b
    writeRecordEntries { s with proofs := { s.proofs with iDone := s.proofs.iDone + 1 } } bs

/-- Ring entries of a record. -/
def recEntries (r : RecOut) : Nat := if r.sig then 4 else 1

/-- STEP and HEAD of a chain record that has been written, sent to the partner (R334). -/
def sendHead (s : State) (step : Nat) (head : Digest) : State :=
  if s.proofs.pairState = 1 ∨ s.proofs.pairState = 3 then
    let s := sendMgmt s { dst := s.fab.id ^^^ 2 ^ 23, mtype := mtPair, session := 1, a := step,
                          digest := head }
    if s.proofs.pairState = 1 then
      { s with proofs := { s.proofs with ownHeads := s.proofs.ownHeads ++ [(step, head, now s)] } }
    else s
  else s

/-- A record written to the host impression ring: a signed record brings the completions it covers, a
chain record's HEAD, its last 32 bytes, goes to the partner. -/
def writeRecord (s : State) (r : RecOut) : State :=
  let s := writeRecordEntries s (chunks 128 (recEntries r) r.bytes)
  if r.sig then
    let s := { s with proofs := { s.proofs with inRing := max s.proofs.inRing r.step } }
    finishDone (proofReadies s) (some r.step)
  else sendHead s r.step (digestOfBytes (r.bytes.drop 96))

/-- A record may go to its ring: a chain record after the proofs of its step are in the store (R326), and
after the signed record of an earlier step whose head the stile has still to sign (R327; log 87). -/
def recordReady (s : State) (r : RecOut) : Bool :=
  r.sig || (s.proofs.store.all (fun x => x.placed || decide (r.step < x.proof.last)) &&
    match s.proofs.due with
    | some h => decide (r.step ≤ h.step)
    | none => true)

/-- One held record written, where it may go to the ring and the ring has room. -/
def writeOne (s : State) : Option State :=
  match s.proofs.held with
  | r :: rs =>
    if recordReady s r && recordRoom s (recEntries r) then
      some (writeRecord { s with proofs := { s.proofs with held := rs } } r)
    else none
  | [] => none

/-- Held records written in order while the ring has room; at most `n` of them. -/
def flushRecords : Nat → State → State
  | 0, s => s
  | n + 1, s => match writeOne s with
    | some s => flushRecords n s
    | none => s

/-- Proofs copied in order while their ring has room; at most `n` of them. -/
def flushProofs : Nat → State → State
  | 0, s => s
  | n + 1, s => match copyOne s with
    | some s => flushProofs n s
    | none => s

/-- What can go to the host rings goes. -/
def flushRings (s : State) : State :=
  let s := flushProofs s.proofs.store.length (placeProofs s)
  finishDone (proofReadies (flushRecords s.proofs.held.length s)) none

/-- The head that waits to be signed is skipped (R444, R467): a PROGRAM_DONE no longer waits for its record
(log 87). -/
def skipHead (s : State) : State :=
  if s.proofs.due.isNone then s
  else flushRings { s with proofs := { s.proofs with
    due := none, waitDone := s.proofs.waitDone.map fun d => { d with unsigned := true } } }

/-- A record for the host impression ring, behind those held. -/
def queueRecord (s : State) (r : RecOut) : State :=
  { s with proofs := { s.proofs with held := s.proofs.held ++ [r] } }

/-! ### The chain (R326 to R328) -/

/-- A signed record, which takes the entries after the chain record of its step: ahead of the chain records
of later steps (R327). -/
def insertSigned (r : RecOut) : List RecOut → List RecOut
  | [] => [r]
  | x :: xs => if !x.sig && decide (r.step < x.step) then r :: x :: xs else x :: insertSigned r xs

/-- The head of step `step` falls due: one that still waits is skipped (R328). -/
def dueHead (s : State) (step : Nat) : State :=
  { s with proofs := { s.proofs with
      due := some { step := step, head := s.proofs.head, devices := s.proofs.headDevs } } }

/-- The chain record of a step with its proofs: the new HEAD, and the record queued. -/
def chainRecord (s : State) (batch : Bool) (step : Nat) (ps : List Proof) : State :=
  let devices := match ps with
    | p :: _ => p.devices
    | [] => s.prog.devices
  let body := chainBody s batch devices step ps.length (impression ps)
  let head := sha256 (digestBytes s.proofs.head ++ body)
  queueRecord { s with proofs := { s.proofs with head := head, headDevs := devices } }
    { bytes := body ++ digestBytes head, step := step }

/-- Proofs formed: numbered, put in the store, in the order of their LEAF. -/
def addProofs (s : State) : List (Proof × Nat × Asker) → State
  | [] => s
  | (p, req, who) :: r =>
    addProofs { s with proofs := { s.proofs with
      count := s.proofs.count + 1
      store := s.proofs.store ++ [{ q := s.proofs.count, proof := p, req := req, who := who }] } } r

/-! ### Roots of batch ranges (R321) -/

/-- The root of a range of DDR; none where a word is uncorrectable. An empty range has 32 zero bytes. -/
def rangeRoot (s : State) (a n : Nat) : Option Digest :=
  if n = 0 then some 0
  else if badWords s.memory.ddr a n ≠ [] then none
  else some (merkleRoot ((List.range ((n + 0xFFFFF) / 2 ^ 20)).map fun i =>
    leafHash (memGet s.memory.ddr (a + i * 2 ^ 20) (min (2 ^ 20) (n - i * 2 ^ 20)))))

/-- The device forms the batch proof: rank 0, or a device alone. -/
def formsBatchProof (s : State) : Bool := s.fab.part == .unassigned || s.fab.rank == 0

end Sys2Proof.Machine
end

