-- ==== Sys2Proof/Machine/BooksOps.lean ====
section
/-! DEFINITION. The books of the serving engine: pages, token stores, reference counts, the completions of requests and the return of their entries (08 R237, R238, R255 to R257, R275; 09 R300). -/

namespace Sys2Proof.Machine

open Sys2Proof

def setBooks (s : State) (b : Books) : State := { s with srv := { s.srv with books := b } }

/-- A change of the books that no boundary decides: it stands in the books that a discarded boundary
leaves as well (R248). -/
def updBooks (s : State) (f : Books → Books) : State :=
  { s with srv := { s.srv with books := f s.srv.books, saved := s.srv.saved.map f } }
def setLoad (s : State) (l : Load) : State := { s with load := l }

/-! ### Sorted lists of numbers -/

/-- `n` put in its place in an ascending list, once. -/
def insertNat (n : Nat) : List Nat → List Nat
  | [] => [n]
  | m :: l => if n < m then n :: m :: l else if n = m then m :: l else m :: insertNat n l

/-- The least number from `n` on that an ascending list does not hold. -/
def firstGap : Nat → List Nat → Nat
  | n, [] => n
  | n, m :: l => if m < n then firstGap n l else if m = n then firstGap (n + 1) l else n

/-! ### Pages (R255 to R257) -/

def pageTokens (s : State) : Nat := 16 * 2 ^ s.srv.pageTok
def pageBytes (s : State) : Nat := pageTokens s * s.prog.table.kvBytes

/-- The address of a page. -/
def pageAddr (s : State) (p : Nat) : Nat :=
  match s.prog.kv with
  | some r => r.lo + p * pageBytes s
  | none => 0

/-- Pages of the KV region. -/
def pageCount (s : State) : Nat :=
  match s.prog.kv with
  | some r => if pageBytes s = 0 then 0 else (r.hi + 1 - r.lo) / pageBytes s
  | none => 0

/-- Pages on the free list: below the count, neither in use nor fallow. -/
def pagesFree (b : Books) : Nat := b.freeCut - b.taken.length

/-- The lowest free page taken (R257). -/
def takePage (b : Books) : Option (Nat × Books) :=
  let p := firstGap 0 b.taken
  if p < b.freeCut then some (p, { b with taken := insertNat p b.taken, refs := put 0 b.refs p 1 })
  else none

/-- One more holder of a page. -/
def holdPage (b : Books) (p : Nat) : Books := { b with refs := upd 0 b.refs p (· + 1) }

/-- One holder of a page fewer; at zero the page is fallow. -/
def dropPage (b : Books) (p : Nat) : Books :=
  let n := look 0 b.refs p
  if n ≤ 1 then { b with refs := put 0 b.refs p 0, fallow := insertNat p b.fallow }
  else { b with refs := put 0 b.refs p (n - 1) }

/-- The lowest fallow page that no uncommitted boundary could call back. -/
def nextFallow (s : State) : Option Nat :=
  s.srv.books.fallow.find? fun p => match s.srv.saved with
    | some b => b.fallow.contains p
    | none => true

/-- Pages reserved for requests and not yet allocated. -/
def reservedPages (b : Books) : Nat := b.reqs.foldl (fun n p => n + p.2.reserved) 0

/-! ### Token stores (R237, R238, R255) -/

def blockBytes : Nat := 65536

/-- Pages of context of a request. -/
def contextPages (s : State) (r : Req) : Nat :=
  (r.prompt.length + r.maxNew + pageTokens s - 1) / pageTokens s

/-- Bytes of the page table at the start of the token store, rounded up to 64. -/
def tableBytes (s : State) (r : Req) : Nat := (4 * contextPages s r + 63) / 64 * 64

/-- The device address of the token at position `i`. -/
def tokenAddr (s : State) (r : Req) (i : Nat) : Nat := r.store + tableBytes s r + 4 * i

/-- Blocks that a request needs: page table, tokens and attribution list. -/
def storeBlocks (s : State) (r : Req) : Nat :=
  (tableBytes s r + 4 * (r.prompt.length + r.maxNew + 8) + blockBytes - 1) / blockBytes

/-- `a` rounded up to a multiple of `k`. -/
def alignUp (k a : Nat) : Nat := (a + k - 1) / k * k

/-- The lowest address from `a` on, a multiple of `k`, at which `n` bytes fit before the runs taken. -/
def fitRun (k n : Nat) : Nat → List (Nat × Nat) → Nat
  | a, [] => a
  | a, (b, m) :: l => if a + n ≤ b then a else fitRun k n (max a (alignUp k (b + m))) l

/-- A run put in its place among those taken. -/
def insertRun (a n : Nat) : List (Nat × Nat) → List (Nat × Nat)
  | [] => [(a, n)]
  | (b, m) :: l => if a < b then (a, n) :: (b, m) :: l else (b, m) :: insertRun a n l

/-! ### Layout of the engine area (R237, R250) -/

def areaAddr (s : State) : Nat := s.srv.areaBase * unit2M
def areaBytes (s : State) : Nat := s.srv.areaSize * unit2M

def round64 (n : Nat) : Nat := (n + 63) / 64 * 64

/-- Bytes of a variant's manifest: header, masks and records, each part on a 64 B boundary. -/
def manifestBytes (chunk : Nat) (x : Shape) : Nat :=
  256 + round64 ((x.d + 63) / 64 * 8) + round64 ((x.p + 63) / 64 * 8) + 64 +
    round64 (32 * x.d) + round64 (32 * (x.p / max 1 chunk)) + round64 (32 * x.a)

/-- MSIZE: the largest manifest rounded up to 64 KiB. -/
def manifestSize (t : StepTable) : Nat :=
  ((t.shapes.map (manifestBytes t.chunk)).foldl max 0 + blockBytes - 1) / blockBytes * blockBytes

/-- Bytes of the fixed parts (table of R237). -/
def fixedBytes (t : StepTable) (pages : Nat) : Nat :=
  2 * manifestSize t + 8 * pages + 2 ^ 27 + 64 * 102400 * 64

/-- First byte of the pool, on a block boundary, and the end of the area. -/
def poolBase (s : State) : Nat :=
  (areaAddr s + fixedBytes s.prog.table (pageCount s) + blockBytes - 1) / blockBytes * blockBytes
def poolEnd (s : State) : Nat := areaAddr s + areaBytes s

/-- The null page table (R251): its length, for the longest context in the smallest pages, and where it
stands. DESIGN CHOICE (log 85): a block of the pool that the manual does not name, a free value. -/
def nullBytes (s : State) : Nat := 4 * ((s.prog.table.contextMax + 15) / 16)
def nullAddr (s : State) : Nat := poolBase s + blockBytes * (Config.nullTable % 1000)

/-- The blocks of the pool that the null page table takes, and whether a block is one of them. -/
def nullBlocks (s : State) : Nat := (nullBytes s + blockBytes - 1) / blockBytes
def inNull (s : State) (a : Nat) : Bool :=
  decide (nullAddr s ≤ a ∧ a < nullAddr s + nullBlocks s * blockBytes)

/-- The null page table's blocks zeroed, and its entries written: each is 0xFFFF_FFFF (R251). -/
def writeNull (s : State) : State :=
  let s := setDdr s (memZero s.memory.ddr (nullAddr s) (nullBlocks s * blockBytes))
  ddrWrite s (nullAddr s) (List.replicate (nullBytes s) 0xFF)

/-- Blocks of the pool that are not all zeros, or hold a word in error: they are zeroed before they are
taken. Those of the null page table are never taken. -/
def usedBlocks (s : State) : List Nat :=
  let cells := s.memory.ddr.cells.map fun c => c.1
  let words := s.memory.ddr.flips.map fun w => 8 * w.1
  ((cells ++ words).filter fun a => decide (poolBase s ≤ a ∧ a < poolEnd s) && !inNull s a).foldl
    (fun l a => insertNat (a / blockBytes * blockBytes) l) []

/-- Bytes of a TREE node (R262): a free value. -/
def nodeBytes (s : State) : Nat := Config.nodeBytes (pageTokens s)

/-- What is taken of the pool: the null page table, token stores, blocks not yet zeroed, and TREE nodes. -/
def poolRuns (s : State) : List (Nat × Nat) :=
  let nodes := if s.srv.pfxMode = 2 then s.srv.books.pfx.map fun e => (e.at_, nodeBytes s) else []
  ([(nullAddr s, nullBytes s)] ++ s.srv.stores ++ s.srv.dirty.map (fun a => (a, blockBytes)) ++ nodes).foldr
    (fun p l => insertRun p.1 p.2 l) []

/-- A token store taken for a request, where the pool has room. -/
def takeStore (s : State) (i : Nat) : Option State :=
  let r := reqAt s i
  let n := storeBlocks s r
  let a := fitRun blockBytes (n * blockBytes) (poolBase s) (poolRuns s)
  if a + n * blockBytes ≤ poolEnd s then
    let s := { s with srv := { s.srv with stores := insertRun a (n * blockBytes) s.srv.stores } }
    some (updReq s i fun r => { r with store := a, storeLen := n })
  else none

/-- A token store given back: its blocks are to be zeroed before they are free again (R257). -/
def giveStore (s : State) (r : Req) : State :=
  if r.storeLen = 0 then s
  else
    { s with srv := { s.srv with
        stores := s.srv.stores.filter fun p => p.1 != r.store
        dirty := (List.range r.storeLen).foldl (fun l k => insertNat (r.store + k * blockBytes) l) s.srv.dirty } }

def tokenBytes (ts : List Word) : List Byte := ts.flatMap fun (t : Word) => leBytes 4 t.toNat

/-! ### Reference counts of adapters and tenants (R300, tenant entry) -/

/-- Requests outside FREE that hold an adapter slot. -/
def adapterRefs (s : State) (a : Nat) : Nat :=
  (s.srv.books.reqs.filter fun p => p.2.state != .free && p.2.adapter == some a).length

/-- ACTIVE of a tenant, and of a function. -/
def tenantActive (s : State) (t : Nat) : Nat :=
  (s.srv.books.reqs.filter fun p => p.2.state != .free && p.2.tenant == t).length
def fnActiveReqs (s : State) (f : Nat) : Nat :=
  (s.srv.books.reqs.filter fun p => p.2.state != .free && p.2.fn == f).length

/-- A RETIRING adapter that no request holds goes to ZEROING (R298). -/
def settleAdapter (s : State) (a : Nat) : State :=
  let x := adapterAt s a
  if x.state = .retiring ∧ adapterRefs s a = 0 then bumpMeas (setAdapter s a { x with state := .zeroing })
  else s

/-- A LIVE adapter retired; the status (R302). -/
def retireAdapter (s : State) (a : Nat) : State × Nat :=
  match (adapterAt s a).state with
  | .live => (setAdapter s a { adapterAt s a with state := .retiring }, stOK)
  | .retiring => (s, stAlready)
  | _ => (s, stAdapter)

/-! ### Tenant budgets (R264) -/

/-- SET_BUDGET's change of a tenant, its bucket full at tick `t`; refused where it clears VALID or
changes FUNCTION under active requests. -/
def applyBudget (s : State) (t : Nat) (l : Later) : State × Nat :=
  let x := tenantAt s l.idx
  if tenantActive s l.idx ≠ 0 ∧ (x.valid ∧ !l.ten.valid ∨ l.ten.fn ≠ x.fn) then (s, stNoRes)
  else
    (setTenant s l.idx { x with
      valid := l.ten.valid, reject := l.ten.reject, fn := l.ten.fn, cost := l.ten.cost
      rate := l.ten.rate, burst := l.ten.burst, level := l.ten.burst * 2 ^ 32, refilled := t }, stOK)

/-! ### The end of an entry (R275) -/

/-- A request entry written that no boundary decides. -/
def putReq (s : State) (i : Nat) (r : Req) : State := updBooks s fun b => { b with reqs := put {} b.reqs i r }

/-- The entry returns to FREE: pages, token store and adapter are released. -/
def releaseReq (s : State) (i : Nat) : State :=
  let r := reqAt s i
  let s := giveStore s r
  let s := updBooks s fun b => r.pages.foldl dropPage b
  let s := putReq s i {}
  match r.adapter with
  | some a => settleAdapter s a
  | none => s

/-- Who is told of a request. -/
def askerOf (r : Req) : Asker :=
  { fn := r.fn, gen := r.gen, sring := r.sring, cring := r.cring, tag := r.tag, op := 0x01 }

/-- REQUEST_DONE (table of R428). -/
def requestDone (r : Req) (i status : Nat) (proof : Bool) : List DWord :=
  compWords (compWord0 ctReqDone status r.sring i 0x01) r.tag
    [dw (if r.firstStep = 0 then 0 else r.lastStep), dw (r.output.length + r.hit * 2 ^ 32),
     dw r.firstTok, dw r.lastTok,
     dw (r.tbtMisses + b2n r.ttftMissed * 2 ^ 16 + b2n r.late * 2 ^ 17 + b2n proof * 2 ^ 18)]

/-- TOKENS (table of R428). -/
def tokensWords (r : Req) (i step commit : Nat) (o : Outcome) : List DWord :=
  compWords (compWord0 ctTokens stOK r.sring i 0x01) r.tag
    [dw step, dw commit, dw ((o.token.getD 0).toNat + o.idx * 2 ^ 32), dw o.flags]

/-- The entry's REQUEST_DONE waits for room in its ring (R430). -/
def doneHeld (s : State) (i : Nat) : Bool := (fnAt s (reqAt s i).fn).held.any fun h => h.frees == some i

/-- A request's REQUEST_DONE: once it is written, the entry returns to FREE; until then it stays ENDING. Of a
function that is gone, nothing is written (R275, R430, R437). -/
def endEntry (s : State) (i : Nat) (ws : List DWord) : State :=
  let r := reqAt s i
  let fn := fnAt s r.fn
  if !fnActive s r.fn || fn.gen != r.gen then releaseReq s i
  else if ringRoom (ringAt s r.fn (64 + r.cring)) && !(fn.held.any fun h => h.ring == r.cring) then
    releaseReq (writeEntry s r.fn (64 + r.cring) ws) i
  else
    putReq (setFn s r.fn { fn with held := fn.held ++ [{ ring := r.cring, words := ws, frees := some i, at_ := nextHeld fn }] }) i
      { r with state := .ending }

/-- Held completions written while their rings have room (R430), and the entries that they end returned to
FREE (R275). -/
def drainFn (s : State) (f : Nat) : State :=
  let h := (fnAt s f).held
  let r := drainHeld s f h
  let s := updFn r.1 f fun x => { x with held := r.2 }
  ((h.filterMap (·.frees)).filter fun i => !(r.2.any fun x => x.frees == some i)).foldl releaseReq s

/-- Held completions of a function discarded (R437), and the entries that they end returned to FREE. -/
def dropHeld (s : State) (f : Nat) : State :=
  let h := (fnAt s f).held
  (h.filterMap (·.frees)).foldl releaseReq (updFn s f fun x => { x with held := [] })

/-- Held completions no longer name entries: the request table has been cleared. -/
def unlinkHeld (s : State) : State :=
  (List.range 64).foldl (fun s f =>
    updFn s f fun x => { x with held := x.held.map fun h => { h with frees := none } }) s

/-- Descriptors that wait for a boundary that will not come: the program has ended. -/
def settlePending (s : State) : State :=
  let v := s.srv
  let s := { s with srv := { v with cancels := [], budgets := [], retires := [] } }
  let s := v.cancels.foldl (fun s l => answerStatus s l.who stAlready) s
  let s := v.budgets.foldl (fun s l =>
    let r := applyBudget s (now s) l
    answerStatus r.1 l.who r.2) s
  v.retires.foldl (fun s l =>
    let r := retireAdapter s l.idx
    settleAdapter (answerStatus r.1 l.who r.2) l.idx) s

/-- Every request without a terminal completion ends with CANCELLED and PROOF 0 (R398). -/
def cancelRemaining (s : State) : State :=
  (s.srv.books.reqs.map (·.1)).foldl (fun s i =>
    let r := reqAt s i
    if r.noProof then releaseReq s i
    else if doneHeld s i then s
    else endEntry s i (requestDone r i stCancelled false)) { s with srv := { s.srv with cancelAll := false } }

end Sys2Proof.Machine
end

