-- ==== Sys2Proof/Machine/Coll.lean ====
section
/-! DEFINITION. Data put on the mesh, and the collectives engines (04 R111; 07 R226; 10 R317, R318; 12 R392). -/

namespace Sys2Proof.Machine

open Sys2Proof

/-! ### The mesh -/

/-- Data put on its way to core `v`. -/
def toMesh (s : State) (v slot : Nat) (src : Source) (bs : List Byte) : State :=
  { s with transit := s.transit ++
      [{ dst := v, slot := slot, src := src, len := bs.length / 64, data := bs }] }

/-- Data put on its way to every core of a multicast group (R226). -/
def toGroup (s : State) (g slot : Nat) (src : Source) (bs : List Byte) : State :=
  match s.prog.groups[g]? with
  | some m => (List.range s.prog.cores).foldl
      (fun s v => if m.getLsbD v then toMesh s v slot src bs else s) s
  | none => s

/-! ### Contributions -/

/-- The collective that an ID names. -/
def collOf (s : State) (id : Nat) : Option CollEntry := (commonOf s).colls.find? fun c => c.id == id

/-- Bytes of a contribution: COUNT times the element width, in whole 64-byte units as a SEND carries
them. -/
def contribBytes (c : CollEntry) : Nat := (c.count * elemWidth (fmtElem c.fmt) + 7) / 8

/-- The replica set's size, of a collective over it alone: that of the model slots (R306). -/
def replicaSize (s : State) : Nat :=
  2 ^ ((List.range 8).map fun n => (slotAt s n).split).foldl max 0

/-- The devices of this device's load or replica set of `n`, in the order of their member numbers (R286, R306). -/
def setMembers (id n : Nat) : List Nat :=
  let g := id / 4096 * 4096
  if n = 64 then (List.range 64).map fun m => g + m % 8 * 64 + m / 8
  else if n ≤ 1 then [id]
  else (List.range n).map fun m => g + (devX id / n * n + m) * 64 + devY id

/-- The ranks of a collective, and this device's rank in it (R317). -/
def collSize (s : State) (c : CollEntry) : Nat :=
  if c.subset then replicaSize s else (commonOf s).ranks.length
def collRank (s : State) (c : CollEntry) : Nat :=
  if c.subset then devX s.fab.id % replicaSize s else s.fab.rank

/-- A contribution noted under its collective, by rank. -/
def addContribution (s : State) (id rank : Nat) (bs : List Byte) : State :=
  { s with fab := { s.fab with coll := upd [] s.fab.coll id fun l =>
      (l.filter fun p => p.1 != rank) ++ [(rank, bs)] } }

/-! ### Combining (R317, R318, R392) -/

/-- One combination: of FP32 values, or of INT32 where `int`. -/
def collCombine (int : Bool) (op : Nat) (a b : Word) : Word :=
  match op with
  | 0 => if int then (iAdd a b).1 else (fpAdd 0 false 0 a b).1
  | 1 => if int then (if a.toInt < b.toInt then b else a) else fpMinMax true a b
  | _ => if int then (if a.toInt < b.toInt then a else b) else fpMinMax false a b

/-- Two contributions combined element by element. -/
def collPair (int : Bool) (op : Nat) (a b : List Word) : List Word :=
  (a.zip b).map fun p => collCombine int op p.1 p.2

/-- One level of the tree: pairs in rank order, an odd last one unchanged. -/
def collLevel (int : Bool) (op : Nat) : List (List Word) → List (List Word)
  | a :: b :: r => collPair int op a b :: collLevel int op r
  | l => l

/-- A combination at one level of the tree saturates: an INT32 sum (R51, R318). -/
def levelSat : List (List Word) → Bool
  | a :: b :: r => ((a.zip b).any fun p => (iAdd p.1 p.2).2 != 0) || levelSat r
  | _ => false

/-- The fixed tree over the ranks; `n` levels reach one value. -/
def collTree (int : Bool) (op : Nat) : Nat → List (List Word) → List Word
  | 0, l => l.headD []
  | n + 1, l => collTree int op n (collLevel int op l)

/-- A combination of the tree saturates. -/
def treeSat : Nat → List (List Word) → Bool
  | 0, _ => false
  | n + 1, l => levelSat l || treeSat n (collLevel true 0 l)

/-- A contribution widened (R318). -/
def collWiden (c : CollEntry) (bs : List Byte) : List Word :=
  (unpackElems (elemWidth (fmtElem c.fmt)) c.count bs).map fun e => (widen (fmtElem c.fmt) e 0).1

/-- The collective works on integers. -/
def collInt (c : CollEntry) : Bool := fmtElem c.fmt == 8 || fmtElem c.fmt == 9

/-- The reduction of the contributions of all ranks. -/
def collReduce (c : CollEntry) (n : Nat) (l : List (List Byte)) : List Byte :=
  (collTree (collInt c) c.combine n (l.map (collWiden c))).flatMap fun (w : Word) => leBytes 4 w.toNat

/-- The reduction raises SAT in its engine. -/
def collSaturates (c : CollEntry) (l : List (List Byte)) : Bool :=
  collInt c && c.combine == 0 && decide (c.op ≤ 2) && treeSat l.length (l.map (collWiden c))

/-- Ranks whose contribution a collective needs. -/
def collNeeds (s : State) (c : CollEntry) : List Nat :=
  if c.op = 4 then [c.root] else List.range (collSize s c)

/-- The contribution of a rank, where it has come. -/
def contribOf (s : State) (c : CollEntry) (r : Nat) : Option (List Byte) :=
  ((look [] s.fab.coll c.id).find? fun p => p.1 == r).map (·.2)

/-- This rank's share of a REDUCE_SCATTER: elements rank × COUNT / n on. -/
def scatterShare (s : State) (c : CollEntry) (bs : List Byte) : List Byte :=
  let n := max 1 (collSize s c)
  let r := collRank s c
  let lo := r * c.count / n
  (bs.drop (4 * lo)).take (4 * ((r + 1) * c.count / n - lo))

/-- The result on this device; none where it receives none. -/
def collResult (s : State) (c : CollEntry) (l : List (List Byte)) : Option (List Byte) :=
  let red := collReduce c l.length l
  match c.op with
  | 0 => some red
  | 1 => some (scatterShare s c red)
  | 2 => if collRank s c = c.root then some red else none
  | 3 => some l.flatten
  | 4 => some l.flatten
  | _ => none

/-- Bytes filled with zeros to a whole 64-byte unit. -/
def padUnit (bs : List Byte) : List Byte := bs ++ List.replicate ((64 - bs.length % 64) % 64) 0

/-- A collective whose contributions are complete: combined, and its result put on the mesh. -/
def finishColl (s : State) (c : CollEntry) : State :=
  let l := (collNeeds s c).map (contribOf s c)
  if l ≠ [] ∧ l.all (·.isSome) ∧ c.op ≤ 4 ∧ c.combine ≤ 2 then
    let res := collResult s c (l.filterMap id)
    let sat := if collSaturates c (l.filterMap id) then BitVec.ofNat 4 (2 ^ (c.engine % 4)) else 0
    let s := { s with fab := { s.fab with
      coll := put [] s.fab.coll c.id [], collSat := s.fab.collSat ||| sat } }
    match res with
    | some bs => toGroup s c.deliverGroup (c.deliverSlot % 4096) (.engine c.engine) (padUnit bs)
    | none => s
  else s

/-! ### Contributions on their way (R384, R392)

The manual leaves open by which path partial data goes between the engines. DESIGN CHOICE (log 31): an engine
that takes a contribution of its own device sends it in COLL packets to the ranks that need it; on VC1, where
the slot tables lead one way, the packets go round by the flow of the collective's ID. -/

/-- This device's engine combines the collective. -/
def collReceives (s : State) (c : CollEntry) : Bool := c.op != 2 || collRank s c == c.root

/-- The devices of the ranks of a collective. -/
def collDevices (s : State) (c : CollEntry) : List Nat :=
  if c.subset then setMembers s.fab.id (replicaSize s) else (commonOf s).ranks

/-- The devices that need this device's contribution. -/
def collTargets (s : State) (c : CollEntry) : List Nat :=
  let ds := collDevices s c
  let l := match c.op with
    | 2 => [nth s.fab.id ds c.root]
    | 4 => if collRank s c = c.root then ds else []
    | _ => ds
  l.filter (· != s.fab.id)

/-- A COLL packet's header without its destination. -/
def collPacket (s : State) (id engine vc : Nat) : Packet :=
  { vc := vc, pkey := s.fab.pkey, ptype := 7, src := s.fab.id, slot := id, vx := 0x3F, vy := engine }

/-- The devices to which the engine sends it: on VC1 the first, from which it goes round. -/
def shareTargets (s : State) (c : CollEntry) : List Nat :=
  if c.vc = 1 then (collTargets s c).take 1 else collTargets s c

/-- This device's contribution sent to the other ranks that need it. -/
def shareContribution (s : State) (c : CollEntry) (bs : List Byte) : State :=
  (shareTargets s c).foldl (fun s d => sendMessage s { collPacket s c.id c.engine c.vc with dst := d } bs) s

/-- This device's contribution at its own engine. -/
def ownContribution (s : State) (c : CollEntry) (bs : List Byte) : State :=
  let s := shareContribution s c bs
  if collReceives s c then finishColl (addContribution s c.id (collRank s c) bs) c else s

end Sys2Proof.Machine
end

