-- ==== Sys2Proof/Machine/XferOps.lean ====
section
/-! DEFINITION. SEND, RECV and MCAST at issue and in the XF queue, the mesh port, and the scheduled window (04 R110 to R112, R121 to R123; 07 R211, R213; 12 R384, R392). -/

namespace Sys2Proof.Machine

open Sys2Proof

/-! ### Fields -/

def xLen (w : Nat) : Nat := bits w 48 33
def xSlot (w : Nat) : Nat := bits w 19 8
def xFlag (w : Nat) : Nat := bits w 7 2
def xFv (w : Nat) : Bool := bit w 1
def xBase (w : Nat) : Nat := bits w 52 49
def isRecv (w : Nat) : Bool := opOf w == 0x21
def isMcast (w : Nat) : Bool := opOf w == 0x22

/-- Where the data of a SEND or MCAST goes. -/
inductive Target where
  | core (v : Nat)
  | group (g : Nat)
  | remote (r : Route)
  | engine (r : Route)
  deriving DecidableEq, Repr

/-- The route entry of this device or another. -/
def routeTarget (s : State) (r : Route) (slot : Nat) : Option Target :=
  if r.device = s.fab.id then
    if r.vx = 0x3F then some (.engine r) else (coreOfXY s r.vx r.vy).map .core
  else if r.vc = 1 ∧ flowLink s slot = none then none
  else if r.vx = 0x3F then some (.engine r)
  else some (.remote r)

/-- Where a SEND or MCAST goes; none for ILLEGAL_OP at issue (R112, R226, R384). -/
def targetOf (s : State) (v w : Nat) : Option Target :=
  if isMcast w then
    match s.prog.groups[bits w 31 20]? with
    | some g => if g.getLsbD v then none else some (.group (bits w 31 20))
    | none => none
  else if bit w 32 then
    match s.prog.routes[bits w 31 20]? with
    | some r => routeTarget s r (xSlot w)
    | none => none
  else (coreOfXY s (bits w 31 26) (bits w 25 20)).map .core

/-! ### The scheduled window (R211, R388) -/

def schedWindow : Nat := 262144

/-- Scheduled bytes counted toward a device; WINDOW_OVERFLOW past the window. -/
def countWindow (s : State) (dst slot n : Nat) : Except Flt State :=
  let u := look 0 s.prog.window dst + n
  if schedWindow < u then
    .error { code := fcWindow, detail := dw (slot + dst * 2 ^ 12) }
  else .ok { s with prog := { s.prog with window := put 0 s.prog.window dst u } }

/-! ### Deliveries -/

/-- LENGTH_MISMATCH (table of R129); `instr` is false where it is found on a delivery (R132). -/
def lengthFlt (instr : Bool) (want got slot : Nat) : Flt :=
  { code := fcLength, detail := dw (want + got * 2 ^ 16 + slot * 2 ^ 32), instr := instr }

/-- The RECVs of a slot, and the deliveries held on it, each in order. -/
def recvsOn (c : Core) (slot : Nat) : List RecvOp := c.recvs.filter fun r => r.slot == slot
def heldOn (c : Core) (slot : Nat) : List Delivery := c.port.filter fun d => d.slot == slot

/-- The first RECV whose length differs from that of its delivery. -/
def mismatchIn : List RecvOp → List Delivery → Option (RecvOp × Delivery)
  | r :: rs, d :: ds => if r.len = d.len then mismatchIn rs ds else some (r, d)
  | _, _ => none

/-- RECVs of the core that have run: those queued behind a waiting SEND have not (R116). -/
def recvsRun (c : Core) : Nat := c.recvs.length - (c.xf.filter fun e => isRecv e.word.toNat).length

/-! ### Running an entry of the XF queue -/

/-- A fault of a core with the word and the pc it is tied to. -/
structure FltAt where
  flt  : Flt
  pc   : Nat
  word : DWord
  deriving DecidableEq, Repr

/-- Data of a SEND or MCAST: the range is checked whatever the mask, and read unless it is gated
(R92, R110). -/
def sendData (x : Ex) (e : SendOp) : Except Flt (List Byte × Ex) :=
  let n := 64 * xLen e.word.toNat
  match checkPlate x.core.tags ownMesh e.addr.toNat n false with
  | some f => .error f
  | none => if e.gate then plateFetch x e.addr.toNat n else .ok (List.replicate n 0, x)

/-- Corrected words of a core's plate counted in its heath (R137). -/
def countCe (s : State) (v ce : Nat) : State :=
  if ce = 0 then s else updHeath s (heathOf s v) fun h =>
    { h with ce := satTo 16 (h.ce + ce), ceWin := h.ceWin.add (now s) ce }

/-- The devices against whose windows a message counts: those that it is sent to on VC1; of a contribution at
the device's own engine, those that the engine sends it on to (R211, R392). -/
def windowsOf (s : State) (t : Target) (slot : Nat) : List Nat :=
  match t with
  | .remote r => if r.vc = 1 then [r.device] else []
  | .engine r =>
    if r.device ≠ s.fab.id then (if r.vc = 1 then [r.device] else [])
    else match collOf s slot with
      | some c => if c.vc = 1 then shareTargets s c else []
      | none => []
  | _ => []

/-- Bytes counted toward each of several devices. -/
def countWindows (slot n : Nat) : List Nat → State → Except Flt State
  | [], s => .ok s
  | d :: ds, s => match countWindow s d slot n with
    | .ok s => countWindows slot n ds s
    | .error f => .error f

/-- The data handed to its target. -/
def handOver (s : State) (v w : Nat) (t : Target) (bs : List Byte) : Except Flt State :=
  let slot := xSlot w
  match t with
  | .core d => .ok (toMesh s d slot (.core v) bs)
  | .group g => .ok (toGroup s g slot (.group g) bs)
  | .remote r => .ok (sendMessage s
      { vc := r.vc, pkey := s.fab.pkey, ptype := 1, dst := r.device, src := s.fab.id
        via := if r.vc = 1 then r.via else 0, slot := slot, vx := r.vx, vy := r.vy } bs)
  | .engine r =>
    let other := r.device ≠ s.fab.id
    let away := fun (s : State) => sendMessage s
      { collPacket s slot r.vy r.vc with dst := r.device, via := if r.vc = 1 then r.via else 0 } bs
    match collOf s slot with
    | none => .ok (if other then away s else s)
    | some c =>
      if contribBytes c ≠ bs.length then .error (lengthFlt true 0 (bs.length / 64) slot)
      else .ok (if other then away s else ownContribution s c bs)

/-- A SEND or MCAST run: plate checks, window, data, hand-over. -/
def runSend (s : State) (v : Nat) (e : SendOp) : Except Flt State :=
  let w := e.word.toNat
  match targetOf s v w with
  | none => .error (illegal e.word)
  | some t =>
    match checkPlate (coreAt s v).tags ownMesh e.addr.toNat (64 * xLen w) false with
    | some f => .error f
    | none =>
      match countWindows (xSlot w) (64 * xLen w) (windowsOf s t (xSlot w)) s with
      | .error f => .error f
      | .ok s => match sendData { core := coreAt s v } e with
        | .error f => .error f
        | .ok (bs, x) => handOver (countCe s v x.ce) v w t bs

/-- A RECV run: its range is checked; its data is written when it completes. -/
def runRecv (c : Core) (e : SendOp) : Option Flt :=
  checkPlate c.tags ownMesh e.addr.toNat (64 * xLen e.word.toNat) true

def flagIsSet (c : Core) (f : Nat) : Bool := c.flagSet.getLsbD f
def flagIsPend (c : Core) (f : Nat) : Bool := c.flagPend.getLsbD f
def flagBit (f : Nat) : BitVec 64 := BitVec.ofNat 64 (2 ^ f)

/-- A SEND or MCAST at the head of the queue may run: its flag is set, or it awaits none (R123). -/
def xfReady (c : Core) (e : SendOp) : Bool :=
  isRecv e.word.toNat || !xFv e.word.toNat || flagIsSet c (xFlag e.word.toNat)

/-- One entry run. -/
def runXf (s : State) (v : Nat) (e : SendOp) : Except Flt State :=
  if isRecv e.word.toNat then
    match runRecv (coreAt s v) e with
    | some f => .error f
    | none => .ok s
  else runSend s v e

/-- The entries of the XF queue run in order while the head may run. -/
def drainXf (s : State) (v : Nat) : List SendOp → State × Option FltAt
  | [] => (setCore s v { coreAt s v with xf := [] }, none)
  | e :: es =>
    if xfReady (coreAt s v) e then
      match runXf s v e with
      | .error f => (s, some { flt := f, pc := e.pc, word := e.word })
      | .ok s => drainXf s v es
    else (setCore s v { coreAt s v with xf := e :: es }, none)

/-- The queue run as far as it goes. -/
def pumpXf (s : State) (v : Nat) : State × Option FltAt := drainXf s v (coreAt s v).xf

/-! ### Issue (R110 to R112, R115, R121, R122, R135) -/

/-- The checks at issue that raise ILLEGAL_OP. -/
def xferIssueOk (s : State) (v w : Nat) : Bool :=
  let c := coreAt s v
  (baseOf c (xBase w)).toNat % 64 == 0 &&
  (if isRecv w then !xFv w || !(flagIsSet c (xFlag w) || flagIsPend c (xFlag w))
   else (targetOf s v w).isSome)

/-- A SEND, RECV or MCAST enters the queue; a RECV's flag is pending from now on. -/
def issueXfer (s : State) (v pc : Nat) (word : DWord) : State × Option FltAt :=
  let w := word.toNat
  let c := coreAt s v
  let a := baseOf c (xBase w)
  let e : SendOp := { pc := pc, word := word, addr := a, gate := (maskOf c (predOf w)).getLsbD 0 }
  let c := { c with xf := c.xf ++ [e] }
  let c := if isRecv w then
      { c with
        recvs := c.recvs ++ [{ pc := pc, word := word, slot := xSlot w, addr := a.toNat, len := xLen w
                               flag := xFlag w, fv := xFv w }]
        flagPend := if xFv w then c.flagPend ||| flagBit (xFlag w) else c.flagPend }
    else c
  let (s, f) := pumpXf (setCore s v c) v
  match f with
  | some f => (s, some f)
  | none =>
    match mismatchIn (recvsOn (coreAt s v) (xSlot w)) (heldOn (coreAt s v) (xSlot w)) with
    | some (r, d) =>
      if isRecv w then
        (s, some { flt := lengthFlt true r.len d.len r.slot, pc := r.pc, word := r.word })
      else (s, none)
    | none => (s, none)

/-! ### Arrival and completion (R111, R121, R213) -/

/-- A delivery comes to the port of its core: the slot's binding, then its match with a RECV.
A LENGTH_MISMATCH found here has the pc of that RECV, 0 where none has issued (R132; log 82). -/
def arrive (s : State) (v : Nat) (d : Delivery) : State × Option FltAt :=
  let c := coreAt s v
  let r := (recvsOn c d.slot)[(heldOn c d.slot).length]?
  let want := match r with
    | some r => r.len
    | none => 0
  let pc := match r with
    | some r => r.pc
    | none => 0
  let word := match r with
    | some r => r.word
    | none => 0
  let c' := { c with port := c.port ++ [d]
                     binds := if look none c.binds d.slot = none
                       then put none c.binds d.slot (some d.src) else c.binds }
  let f : FltAt := { flt := lengthFlt false want d.len d.slot, pc := pc, word := word }
  if look none c.binds d.slot ≠ none ∧ look none c.binds d.slot ≠ some d.src then (s, some f)
  else if r.isSome ∧ want ≠ d.len then (s, some f)
  else (setCore s v c', none)

/-- The first RECV of a slot that can complete, with its delivery. -/
def readyRecv (c : Core) (slot : Nat) : Option (RecvOp × Delivery) :=
  match (c.recvs.take (recvsRun c)).find? (fun r => r.slot == slot), (heldOn c slot).head? with
  | some r, some d => if r.len = d.len then some (r, d) else none
  | _, _ => none

/-- WINDOW packets for data of other devices that is written (R389). SLOT carries the class and LEN the
bytes: DESIGN CHOICE (log 30). -/
def sendWindows (s : State) (dst : Nat) (wins : List (Nat × Nat)) : State :=
  wins.foldl (fun s w => inject s
    { vc := 0, pkey := s.fab.pkey, ptype := 8, dst := dst, src := s.fab.id, slot := w.1, len := w.2 }) s

/-- The source device of a delivery told that its data is written. -/
def ackDelivery (s : State) (d : Delivery) : State :=
  match d.src with
  | .device x => sendWindows s x d.wins
  | _ => s

/-- The last unit of a RECV is written and its flag is set; sends that waited for the flag go on. -/
def completeRecv (s : State) (v : Nat) (r : RecvOp) (d : Delivery) : State × Option FltAt :=
  match plateStore { core := coreAt s v } r.addr d.data with
  | .error f => (s, some { flt := f, pc := r.pc, word := r.word })
  | .ok x =>
    let c := x.core
    let c := { c with
      recvs := c.recvs.erase r
      port := c.port.erase d
      flagSet := if r.fv then c.flagSet ||| flagBit r.flag else c.flagSet
      flagPend := if r.fv then c.flagPend &&& ~~~flagBit r.flag else c.flagPend }
    pumpXf (ackDelivery (countCe (setCore s v c) v x.ce) d) v

end Sys2Proof.Machine
end

