-- ==== Sys2Proof/Machine/Stop.lean ====
section
/-! DEFINITION. How a program ends: the stop of a partition, core faults, lost heaths, failed channels, and the PROGRAM_DONE that follows (04 R130, R131; 05 R151 to R156; 06 R204 to R207, R511; 08 R248; 12 R397, R398). -/

namespace Sys2Proof.Machine

open Sys2Proof

/-! ### Stop causes (table of R207) -/

def caLate : Nat := 0x1
def caHoldLate : Nat := 0x2
def caHoldLimit : Nat := 0x3
def caSync : Nat := 0x4
def caCore : Nat := 0x5
def caHeath : Nat := 0x6
def caLink : Nat := 0x7
def caChannel : Nat := 0x8
def caFenced : Nat := 0x9
def caAbort : Nat := 0xA

/-- The status with which the launch completes (R207). -/
def causeStatus (cause : Nat) : Nat :=
  match cause with
  | 0x5 => stProgFault
  | 0x7 => stLinkDown
  | 0x8 => stProgFault
  | 0x9 => stFenced
  | 0xA => stCancelled
  | _ => stOverrun

/-! ### A discarded boundary (R248, R295) -/

/-- The request was in INTAKE, held or not. -/
def inIntake (o : Req) : Bool := o.state == .intake || (o.state == .held && o.resume == .intake)

/-- An entry that was in INTAKE before a voided boundary: what its intake has done since stands; HELD, LATE and
an end that the boundary decided do not. -/
def mergeIntake (o x : Req) : Req :=
  let at_ := if x.state = .held then x.resume else x.state
  if x.state = .ending then o
  else if o.state = .held then { x with state := .held, resume := at_, late := o.late }
  else { x with state := at_, resume := o.resume, late := o.late }

/-- The request table of a voided boundary: entries that the boundary decided on are as before it; those that
were in INTAKE keep what their intake did, newer ones are as they are, and a freed entry stays free. -/
def mergeReqs (saved cur : FMap Req) : FMap Req :=
  cur.map fun p =>
    let o := look {} saved p.1
    if o.state = .free then p
    else if inIntake o then (p.1, mergeIntake o p.2)
    else (p.1, o)

/-- The model slot that the boundary changed, as it was. -/
def undoSlot (s : State) (d : Decision) : State :=
  match d.slotWas with
  | some (n, x) => setSlot s n x
  | none => s

/-- Adapters that the boundary moved, as they were. -/
def undoAdapters (s : State) (d : Decision) : State :=
  let s := if d.lived.isEmpty then s else bumpMeas s
  let s := d.retired.foldl (fun s a => setAdapter s a { adapterAt s a with state := .live }) s
  d.lived.foldl (fun s a => setAdapter s a { adapterAt s a with state := .loading, verified := true }) s

/-- Token stores that no request holds are given back to the pool. -/
def keepStores (b : Books) (l : List (Nat × Nat)) : List (Nat × Nat) :=
  l.filter fun p => b.reqs.any fun r => r.2.storeLen != 0 && r.2.store == p.1

/-- The blocks of token stores that no request holds: to be zeroed before they are free again (08 R257; 14 R462). -/
def dropStores (b : Books) (l : List (Nat × Nat)) (dirty : List Nat) : List Nat :=
  (l.filter fun p => !(keepStores b l).contains p).foldl
    (fun d p => (List.range (p.2 / blockBytes)).foldl (fun d k => insertNat (p.1 + k * blockBytes) d) d) dirty

/-- The decisions of an uncommitted boundary are void. -/
def voidBoundary (s : State) : State :=
  match s.srv.decision, s.srv.saved with
  | some d, some b =>
    let s := undoAdapters (undoSlot s d) d
    let later := fun k => d.later.filter fun (l : Later) => l.kind == k
    let v := s.srv
    let b := { b with reqs := mergeReqs b.reqs v.books.reqs }
    let s := { s with srv := { v with
      books := b, stores := keepStores b v.stores, dirty := dropStores b v.stores v.dirty
      saved := none, decision := none, partial_ := []
      cancels := later 2 ++ v.cancels, budgets := later 7 ++ v.budgets
      retires := later 6 ++ v.retires } }
    setLoad s { s.load with fell := if s.load.fell = some (d.step + 1) then none else s.load.fell }
  | _, _ => s

/-! ### The end of a run -/

/-- A core's queued and in-flight operations abandoned (R130). -/
def abandonCore (c : Core) : Core := { c with dma := [], xf := [], recvs := [], port := [] }

def abandonAll (s : State) : State :=
  { s with cores := s.cores.map (fun p => (p.1, abandonCore p.2)), transit := [] }

/-- The cores, the mesh and the tick block kept, for what the same tick still brings (R131, R205). -/
def saveCut (s : State) : State :=
  { s with cut := { cores := s.cores, transit := s.transit, tick := s.tick } }

/-- Issue frozen on every heath. -/
def freezeAll (s : State) : State :=
  (List.range 48).foldl (fun s h => updHeath s h fun x => { x with frozen := true }) s

/-- The record of the heath whose core fault has the earliest GTC (R131). -/
def faultHeath (s : State) : Nat :=
  ((s.heaths.filter fun p => p.2.fault.valid).foldl (fun (best : Option (Nat × Nat)) p =>
    match best with
    | some b => if p.2.fault.gtc < b.2 then some (p.1, p.2.fault.gtc) else some b
    | none => some (p.1, p.2.fault.gtc)) none).elim 0 (·.1)

/-- The pending abort is answered; one that a member forwarded is answered with a RESPONSE (R397). -/
def settleAbort (s : State) (status : Nat) : State :=
  match s.prog.abort with
  | none => s
  | some a =>
    let s := { s with prog := { s.prog with abort := none } }
    if a.op = 0x12 then sendMgmt s { dst := a.tag.toNat, mtype := mtResponse, a := status }
    else answerStatus s a status

/-- The last committed step or stroke. -/
def lastCommitted (s : State) : Nat := if s.prog.step then s.srv.step else s.prog.committed

/-- PROGRAM_DONE at the end of a loaded program that completes, stops or is aborted: a batch program awaits
its signed record (R324, R429); a step program's last head falls due (R327). `ran` is false where a launch is
refused: nothing is signed. -/
def endRun (s : State) (d : DoneRec) (ran : Bool) : State :=
  let s := if progLive s then bumpMeas s else s
  let s := { s with
    prog := { s.prog with phase := .done, lastDigest := s.prog.digest, record := none }
    tick := { s.tick with launched := false, commits := [], fixed := none, ended := false, stopDue := false,
                          rimBusy := false, runQuant := 0, runLimit := 0, lead := 0, path := 0 }
    fab := { s.fab with part := if s.fab.part = .running then .assigned else s.fab.part } }
  let s := if s.prog.step then settlePending s else s
  if !ran then answer s s.prog.asker (progDoneWords s d)
  else if s.prog.step then
    let s := if s.srv.step = 0 ∨ s.proofs.signed = s.srv.step ∧ s.proofs.due = none then s
      else dueHead s s.srv.step
    answer { s with proofs := { s.proofs with done := some d } } s.prog.asker (progDoneWords s d)
  else
    let s := dueHead s d.step
    { s with proofs := { s.proofs with waitDone := some d } }

/-- A program that ends before it runs: PROGRAM_DONE with the status alone. -/
def refuseRun (s : State) (status : Nat) : State := endRun s { status := status } false

/-- Entries of requests after an aborted step program, once nothing is left to journal (R398). -/
def afterAbort (s : State) : State :=
  if s.srv.journal.isEmpty && s.proofs.gated.isEmpty then cancelRemaining s
  else { s with srv := { s.srv with cancelAll := true } }

/-- The first stop that the device learns of is recorded (R205). -/
def recordStop (s : State) (code cause stroke : Nat) (own : Bool) (origin : Nat) : State :=
  if s.tick.stop.valid then s
  else { s with tick := { s.tick with stop :=
    { valid := true, code := code, cause := cause, isLocal := own, stroke := stroke, origin := origin
      gtc := now s } } }

/-- A report with what the recorded stop gives: the launch's status, the stop, and for a core fault or a lost
heath the heath whose record it carries (R131, R207). -/
def reportOf (s : State) (d : DoneRec) : DoneRec :=
  let r := s.tick.stop
  { d with
    status := causeStatus r.cause, code := r.code, cause := r.cause, origin := r.origin, gtc := r.gtc
    heath := if r.cause = caCore ∨ r.cause = caHeath then faultHeath s else 0 }

/-- A received STOP was taken in this tick. -/
def stoppedNow (s : State) : Bool :=
  s.prog.phase == .done && s.tick.stop.valid && !s.tick.stop.isLocal && s.tick.stop.gtc == now s

/-- Entry `k` of a completion ring as host memory holds it. -/
def ringEntry (s : State) (x : Ring) (k : Nat) : List Byte :=
  memGet s.host (x.base + 64 * (k % 2 ^ x.log2)) 64

/-- A completion's bytes in entry `k` of a ring, with the phase of that entry (R428). -/
def entryBytes (x : Ring) (k : Nat) (ws : List DWord) : List Byte :=
  let phase := if k >>> x.log2 % 2 = 0 then 1 else 0
  wordsBytes (((ws.headD 0) ||| dw (phase * 2 ^ 24)) :: ws.tail)

/-- A completion of the program corrected where it stands: held, or in its ring. -/
def rewriteDone (s : State) (old new : List DWord) : State :=
  let a := s.prog.asker
  let fn := fnAt s a.fn
  if fn.gen ≠ a.gen ∨ !fnActive s a.fn then s
  else if fn.held.any fun h => h.ring == a.cring && h.words == old then
    setFn s a.fn { fn with held := fn.held.map fun h =>
      if h.ring = a.cring ∧ h.words = old then { h with words := new } else h }
  else
    let x := ringAt s a.fn (64 + a.cring)
    match (List.range (min x.written (2 ^ x.log2))).find? fun i =>
        ringEntry s x (x.written - 1 - i) == entryBytes x (x.written - 1 - i) old with
    | some i =>
      let k := x.written - 1 - i
      hostWrite s (x.base + 64 * (k % 2 ^ x.log2)) (entryBytes x k new)
    | none => s

/-- The report of the stop, waiting or written, made to agree with the stop that is recorded. -/
def correctReport (s : State) : State :=
  let s := { s with proofs := { s.proofs with waitDone := s.proofs.waitDone.map (reportOf s) } }
  match s.proofs.done with
  | some d =>
    rewriteDone { s with proofs := { s.proofs with done := some (reportOf s d) } }
      (progDoneWords s d) (progDoneWords s (reportOf s d))
  | none => s

/-- The stroke that the device's own stop names: the current one, of the tick in which the program stopped where
it has just stopped; 0 before the first launch (DEDUCED from R511, log 76). -/
def strokeNamed (s : State) : Nat :=
  let t := if progLive s then s.tick else s.cut.tick
  if t.launched then t.stroke else 0

/-- The device's own stop in the tick in which a STOP came: flooded too, and the one recorded (R204, R205). -/
def restop (s : State) (code cause stroke origin : Nat) : State :=
  let s := flood s .stop { ownPrio s with stroke := stroke, code := code, cause := cause } none
  let r : StopRec := { s.tick.stop with code := code, cause := cause, isLocal := true, stroke := stroke, origin := origin }
  correctReport { s with tick := { s.tick with stop := r } }

/-- The stop of a partition on this device (R204 to R207). `own`: this device stops it, and floods. -/
def stopPartition (s : State) (code cause stroke : Nat) (own : Bool) (origin : Nat) : State :=
  if !progLive s then (if own && stoppedNow s then restop s code cause stroke origin else s)
  else
    let s := abandonAll (freezeAll (saveCut s))
    let p := { ownPrio s with stroke := stroke, code := code, cause := cause }
    let s := if own then flood s .stop p none else s
    let s := voidBoundary (recordStop s code cause stroke own origin)
    let d := reportOf s { strokes := lastCommitted s, step := lastCommitted s }
    let s := settleAbort (endRun s d true) (if s.tick.stop.cause = caAbort then stOK else stAlready)
    if s.tick.stop.cause = caAbort ∧ s.prog.step then afterAbort s else s

/-- A stop that this device starts, naming its current stroke. -/
def stopOwn (s : State) (code cause : Nat) : State :=
  stopPartition s code cause (strokeNamed s) true s.fab.id

/-! ### Core faults (R130, R131, R511) -/

/-- The record of a core's fault (R132). -/
def faultRecOf (s : State) (v : Nat) (f : FltAt) : FaultRec :=
  { code := f.flt.code, opcode := if f.flt.instr then opOf f.word.toNat else 0
    vx := vxOf s v, vy := vyOf s v, valid := true, instr := f.flt.instr, pc := f.pc
    stroke := if s.tick.launched then s.tick.stroke else 0, gtc := now s, detail := f.flt.detail }

/-- A record gives way to a fault of core `v` in the same cycle: that of a lower virtual index, or of one core
the lower code (R131). -/
def recordAfter (s : State) (r : FaultRec) (v code : Nat) : Bool :=
  decide (vyOf s v < r.vy ∨ vyOf s v = r.vy ∧ (vxOf s v < r.vx ∨ vxOf s v = r.vx ∧ code < r.code))

/-- The heath keeps the record of its first fault, of several in one tick that of the lowest virtual index and
of one core's the lowest code, and counts the others. The core issues no more (R130, R131). -/
def recordFault (s : State) (v : Nat) (f : FltAt) : State :=
  let s := setCore s v { coreAt s v with faulted := true }
  updHeath s (heathOf s v) fun h =>
    if h.fault.valid then
      { h with
        fault := if h.fault.gtc = now s ∧ recordAfter s h.fault v f.flt.code then faultRecOf s v f else h.fault
        faultCount := satInc 16 h.faultCount }
    else { h with fault := faultRecOf s v f }

/-- A fault in a setup section before the first launch stops the program at once (R511): a device that holds
a launch record floods STOP, any other records its own stop alone, and refuses a record that comes later. -/
def setupStop (s : State) (code : Nat) : State :=
  if s.prog.phase = .due ∧ !s.tick.alone then stopPartition s code caCore 0 true s.fab.id
  else
    let s := recordStop (abandonAll (freezeAll (saveCut s))) code caCore 0 true s.fab.id
    let s := { s with prog := { s.prog with setupFault := true } }
    settleAbort (endRun s (reportOf s {}) true) stAlready

/-- A core fault. The plate words that its unit corrected on the way count (R137). -/
def coreFault (s : State) (v : Nat) (f : FltAt) : State :=
  let s := recordFault (countCe s v f.flt.ce) v f
  if s.tick.launched then stopOwn s f.flt.code caCore
  else setupStop s f.flt.code

/-- What a unit of work answers, with its fault taken. -/
def takeFault (v : Nat) (r : State × Option FltAt) : State :=
  match r.2 with
  | none => r.1
  | some f => coreFault r.1 v f

/-! ### Faults of the tick in which the program stopped (R131, R205) -/

/-- The program stopped in this tick, and core `v` ran its part. DESIGN CHOICE: one tick stands for one cycle
(log 80). -/
def sameTick (s : State) (v : Nat) : Bool :=
  s.prog.phase == .done && s.tick.stop.valid && s.tick.stop.gtc == now s && decide (v < s.prog.cores)

/-- The state as core `v` saw it in that tick. -/
def asIssuing (s : State) (v : Nat) : State :=
  let c := look {} s.cut.cores v
  updHeath { s with
    prog := { s.prog with phase := .running }
    cores := put {} s.cut.cores v { c with faulted := false }, transit := s.cut.transit
    tick := { s.tick with launched := s.cut.tick.launched, stroke := s.cut.tick.stroke } }
    (heathOf s v) fun h => { h with frozen := false }

/-- A core fault noted beside a stop of this tick: the device's own stop is recorded where a received one was,
and the report and the stop carry the code of the heath record (R131, R205, R207). -/
def amendStop (s : State) : State :=
  let code := (heathAt s (faultHeath s)).fault.code
  if !s.tick.stop.isLocal then restop s code caCore (strokeNamed s) s.fab.id
  else if s.tick.stop.cause = caCore then
    correctReport { s with tick := { s.tick with stop := { s.tick.stop with code := code } } }
  else s

/-- A core that faults as it issues issues no more in that tick either (R130). -/
def closeIssue (s : State) (v : Nat) : State :=
  { s with cut := { s.cut with cores := upd {} s.cut.cores v fun c => { c with phase := .halted } } }

/-- Of what core `v` did in that tick, `s'`, only its fault remains: the heath's record and count, and what the
stop and its report say of it (R130, R131). `issuing`: it was an instruction at issue. -/
def keepFault (s : State) (v : Nat) (issuing : Bool) (s' : State) : State :=
  if (coreAt s' v).faulted then
    let x := heathAt s' (heathOf s v)
    let s := setCore s v { coreAt s v with faulted := true }
    let s := updHeath s (heathOf s v) fun h =>
      { h with fault := x.fault, faultCount := x.faultCount, ce := x.ce, ceWin := x.ceWin }
    amendStop (if issuing then closeIssue s v else s)
  else s

/-- Work of core `v` outside issue: done where `ok` says that the core's part runs, unless the program stopped in
this very tick; then its fault alone remains. -/
def inTick (s : State) (v : Nat) (ok : State → Bool) (run : State → State) : State :=
  if ok s then run s
  else if sameTick s v && ok (asIssuing s v) then keepFault s v false (run (asIssuing s v))
  else s

/-! ### Lost heaths (R30 to R32) -/

/-- The fault record of a loaded program's lost heath: OVERRUN, without an instruction (R32). -/
def noteLoss (s : State) (h : Nat) : State :=
  updHeath s h fun x =>
    if x.fault.valid ∨ !progLive s then x
    else { x with fault := { code := fcOverrun, valid := true
                             stroke := if s.tick.launched then s.tick.stroke else 0, gtc := now s } }

/-- A heath is lost. -/
def loseHeath (s : State) (h cause : Nat) : State :=
  let s := updHeath (noteLoss s h) h fun x => { x with state := .lost, lossCause := cause, lossLatch := cause }
  let s := { s with die := { s.die with
    lost := s.die.lost ||| BitVec.ofNat 48 (2 ^ h), effGrade := 0xF } }
  stopOwn (postEvent s evHeathLost h) fcOverrun caHeath

/-! ### Channel scores (R151 to R156) -/

/-- The logical channel at a physical channel's position. -/
def logicalOf (c : Nat) : Nat := c / 10 * 9 + c % 10

/-- Ticks of a copy of 64 GiB at 7.04 B a tick (R152). -/
def copyTicks : Nat := 2 ^ 36 * 100 / 704 + 1

/-- A copy-out to this spare runs. -/
def copying (x : Spare) : Bool := decide (x.pos < 9) && decide (x.progress < 100)

/-- The copy pointer: the byte of the channel below which lines are copied (R152). -/
def copyPtr (s : State) (x : Spare) : Nat :=
  if copying x then min (2 ^ 36) ((now s - x.since) * 704 / 100 / 64 * 64) else 0

/-- PROGRESS: per cent of the channel copied (R154, R171). -/
def copyPercent (s : State) (x : Spare) : Nat :=
  if copying x then min 99 (copyPtr s x * 100 / 2 ^ 36) else x.progress

/-- After an emergency remap the spare holds zeros, with the weights and adapters refilled (R156). -/
def refillChannel (m : Memory) (l : Nat) : Mem :=
  let keep := fun a => chanOf a != l || (kindAt m a == some 0 || kindAt m a == some 2)
  { cells := m.ddr.cells.filter fun p => keep p.1
    flips := m.ddr.flips.filter fun p => chanOf (8 * p.1) != l }

/-- A failed channel. -/
def failChannel (s : State) (c : Nat) : State :=
  let s := setChan s c { chanAt s c with failed := true }
  let s := stopOwn (postEvent s evChanFailed c) fcUncorr caChannel
  let d := c / 10
  if (spareAt s d).state = 0 ∧ c % 10 ≠ 9 ∧ !(chanAt s (10 * d + 9)).failed then
    let s := setDdr s (refillChannel s.memory (logicalOf c))
    let s := setSpare s d { pos := c % 10, state := 2, progress := 100 }
    let s := updBooks s fun b => { b with
      pfx := [], reqs := b.reqs.map fun p => (p.1, { p.2 with reprefill := true }) }
    postEvent s evRemapped c
  else { s with die := { s.die with effGrade := 0xF } }

/-- A channel whose score or count of uncorrectable words has changed: failed, copied out to a free spare, or,
where the die's spare is in use, a second one that cannot be spared (R151, R155, R156). -/
def checkChannel (s : State) (c : Nat) : State :=
  let x := chanAt s c
  let d := c / 10
  let sp := spareAt s d
  if 16 ≤ x.ue ∧ !x.failed then failChannel s c
  else if max 16 s.memory.thresh < x.score ∧ !x.failed ∧ s.stl.state = 1 then
    if sp.state = 0 then
      if s.memory.spareEn ∧ c % 10 ≠ 9 ∧ !(chanAt s (10 * d + 9)).failed then
        postEvent (setSpare s d { sp with pos := c % 10, state := 1, progress := 0, since := now s }) evCopyOut c
      else s
    else if sp.pos ≠ c % 10 ∧ sp.state ≠ 3 then
      postEvent (setSpare s d { sp with state := 3 }) evExhausted c
    else s
  else s

/-- The granule of an address. -/
def granule (a : Nat) : Nat := a / 2048 * 2048

/-- A word found in error: a granule of a WEIGHT or ADAPTER region that was repaired and reads as uncorrectable
again fails its channel (R158). -/
def checkHit (s : State) (h : Nat × Bool) : State :=
  let c := physChan s.memory (chanOf h.1)
  let again := h.2 && s.memory.repaired.contains (granule h.1) &&
    (kindAt s.memory h.1 == some 0 || kindAt s.memory h.1 == some 2)
  if again && !(chanAt s c).failed then failChannel s c else checkChannel s c

/-- Every channel whose words were found in error, checked. -/
def checkHits (s : State) (hits : List (Nat × Bool)) : State := hits.foldl checkHit s

/-- Every channel checked: after reads of the engine, and when the threshold, SPARE_EN or the stile's state has
changed (R151, R156). -/
def sweepChannels (s : State) : State := (List.range 80).foldl checkChannel s

/-- What follows from words found in error by the reads of the engine and of the proofs, from `s` to `s'`. -/
def afterReads (s s' : State) : State := if s'.memory.chans = s.memory.chans then s' else sweepChannels s'

end Sys2Proof.Machine
end

