-- ==== Sys2Proof/Machine/Issue.lean ====
section
/-! DEFINITION. Fetch and issue of core instructions (04 R95 to R99, R114, R115, R117; 07 R219). -/

namespace Sys2Proof.Machine

open Sys2Proof

/-- The core's sequencer can issue: its core is mapped, it is in its setup section or in a stroke, and
issue is not frozen. -/
def canIssue (s : State) (v : Nat) : Bool :=
  mapped s v && ((coreAt s v).phase == .setup || (coreAt s v).phase == .run) &&
  !(heathAt s (heathOf s v)).frozen && !(coreAt s v).faulted

/-- The word that the store delivers (R96). -/
def storeWord (c : Core) (i : Nat) : DWord := look 0 c.store i ^^^ (eccRead (look 0 c.storeEcc i)).2

/-- The word of the store is uncorrectable. -/
def storeBad (c : Core) (i : Nat) : Bool := (eccRead (look 0 c.storeEcc i)).1 == .bad

/-- UNCORRECTABLE of the instruction store (R129). -/
def storeFlt (i : Nat) : Flt := { code := fcUncorr, detail := dw (i + 2 ^ 63), instr := false }

/-- What goes wrong when the word at the pc is fetched: beyond CODE_END, uncorrectable, no legal
instruction, or not one of the setup section (R95 to R99). -/
def fetchFault (s : State) (v : Nat) : Option FltAt :=
  let c := coreAt s v
  let w := storeWord c c.pc
  if c.codeEnd ≤ c.pc then some { flt := illegal w, pc := c.pc, word := w }
  else if storeBad c c.pc then some { flt := storeFlt c.pc, pc := c.pc, word := w }
  else if !legalWord w.toNat || (c.inSetup && !setupWord s.prog.step w.toNat) then
    some { flt := illegal w, pc := c.pc, word := w }
  else none

/-- The loops and the pc after the instruction at `pc` (R114). -/
def stepLoops (pc : Nat) : List Loop → List Loop × Nat
  | [] => ([], pc + 1)
  | l :: ls =>
    if l.last = pc then
      if 0 < l.left then ({ l with left := l.left - 1 } :: ls, l.first) else stepLoops pc ls
    else (l :: ls, pc + 1)

/-- The sequencer goes on to the next instruction. -/
def advancePc (c : Core) : Core :=
  let r := stepLoops c.pc c.loops
  { c with loops := r.1, pc := r.2 }

def advanceCore (s : State) (v : Nat) : State := setCore s v (advancePc (coreAt s v))

/-- The word at the pc taken by a command: the fetch's fault; nothing where the word is another
instruction's; else what the instruction does with its word. -/
def issueNow (s : State) (v : Nat) (own : Nat → Bool) (run : State → DWord → State) : State :=
  match fetchFault s v with
  | some f => coreFault s v f
  | none =>
    let w := storeWord (coreAt s v) (coreAt s v).pc
    if own w.toNat then run s w else s

/-- The word at the pc taken by a command: nothing where the core cannot issue, unless the program stopped in
this very cycle (R131). -/
def issueWith (s : State) (v : Nat) (own : Nat → Bool) (run : State → DWord → State) : State :=
  if canIssue s v then
    let s := issueNow s v own run
    if (coreAt s v).faulted then closeIssue s v else s
  else if sameTick s v && canIssue (asIssuing s v) v then
    keepFault s v true (issueNow (asIssuing s v) v own run)
  else s

/-- ILLEGAL_OP at issue. -/
def issueIllegal (s : State) (v : Nat) (w : DWord) : State :=
  coreFault s v { flt := illegal w, pc := (coreAt s v).pc, word := w }

/-- The draw code of a core in the current stroke (R215). -/
def drawCode (s : State) (v : Nat) : Nat :=
  let bs := nth [] s.prog.profiles (heathAt s (heathOf s v)).profile
  let b := (nth 0 bs (v / 2)).toNat
  if v % 2 = 0 then b % 16 else b / 16

/-- POWER_OVERDRAW of an instruction (R219). -/
def overdrawFlt (s : State) (v w : Nat) : Option Flt :=
  match overdraw (drawCode s v) w with
  | some (unit, more) => some
      { code := fcPower
        detail := dw (((heathAt s (heathOf s v)).declared + more) % 512 + unit * 2 ^ 12) }
  | none => none

/-- An instruction of the PR or VEC queue: checks at issue, then its execution (R117). -/
def unitIssue (s : State) (v : Nat) (w : DWord) (f : Ex → Nat → Except Flt Ex) : State :=
  let pc := (coreAt s v).pc
  if opOf w.toNat < 0x10 ∧ !pressIssueOk (coreAt s v) w.toNat then issueIllegal s v w
  else match overdrawFlt s v w.toNat with
    | some g => coreFault s v { flt := g, pc := pc, word := w }
    | none => match f { core := coreAt s v } w.toNat with
      | .error g => coreFault s v { flt := g, pc := pc, word := w }
      | .ok x => countCe (setCore s v (advancePc x.core)) v x.ce

/-- A command of one opcode of the PR or VEC queue. -/
def unitCommand (s : State) (v op : Nat) (f : Ex → Nat → Except Flt Ex) : State :=
  issueWith s v (fun w => opOf w == op) fun s w => unitIssue s v w f

/-- A command of one VSYS function (table of R105). -/
def sysCommand (s : State) (v fn : Nat) (f : Ex → Nat → Except Flt Ex) : State :=
  issueWith s v (fun w => opOf w == 0x17 && bits w 23 19 == fn) fun s w => unitIssue s v w f

end Sys2Proof.Machine
end

