-- ==== Sys2Proof/Machine/Dma.lean ====
section
/-! DEFINITION. The DMA instructions, their engines, and the completion of a descriptor (04 R94, R95, R109, R121, R122; 05 R157 to R166; 13 R434). -/

namespace Sys2Proof.Machine

open Sys2Proof

/-! ### What a descriptor does to the device -/

/-- The proof store as a span of device addresses. -/
def storeSpan (s : State) : Nat × Nat :=
  (s.proofs.base * 4096, (s.proofs.base + s.proofs.size) * 4096)

/-- A descriptor about to run. -/
def dxOf (s : State) (v : Nat) : Dx :=
  { ex := { core := coreAt s v }, mem := s.memory, host := s.host, store := storeSpan s }

/-- The lines of the host-shared region that an access touches (R434). -/
def touchedLines (a n : Nat) : List Nat :=
  (List.range ((a + n - 1) / 64 + 1 - a / 64)).map (a / 64 + ·)

/-- Back-invalidates of the tracked lines that the device's accesses touch: data for a read,
invalidate for a write, after which the host holds the line no more (R434). -/
def backInvalidate (s : State) (share : List (Nat × Nat × Bool)) : State :=
  share.foldl (fun s x =>
    let hit := s.hif.tracker.filter fun l => x.2.1 != 0 && (touchedLines x.1 x.2.1).contains l
    { s with hif := { s.hif with
        bisnp := (hit.reverse.map fun l => (l, x.2.2)) ++ s.hif.bisnp
        tracker := if x.2.2 then s.hif.tracker.filter fun l => !hit.contains l
          else s.hif.tracker } }) s

/-- The KV page of an address. -/
def kvPage (s : State) (a : Nat) : Nat :=
  match s.prog.kv with
  | some r => if pageBytes s = 0 then 0 else (a - r.lo) / pageBytes s
  | none => 0

/-- A KV substitution noted in the step's list and in the poison log (R159). -/
def noteSub (s : State) (a : Nat) : State :=
  let s := { s with memory := logPoison s.memory a 1 s.srv.curStep }
  if !s.prog.step ∨ s.srv.substs.contains (kvPage s a) then s
  else if s.srv.substs.length < 4096 then
    { s with srv := { s.srv with substs := s.srv.substs ++ [kvPage s a] } }
  else { s with srv := { s.srv with substFull := true } }

/-- The effects of a descriptor's run, or of the part before its fault. -/
def applyDx (s : State) (v : Nat) (d : Dx) : State :=
  let s := setCore s v d.ex.core
  let s := { noteErrors s d.mem d.hits with host := d.host }
  backInvalidate (d.subs.foldl noteSub (countCe s v d.ex.ce)) d.share

/-! ### Stalls (R157, R158) -/

/-- The granule that a stalled descriptor waits for. -/
def stallGranule (s : State) (d : Dx) : Option Nat :=
  (d.hits.find? fun h => h.2 && (kindAt s.memory h.1 == some 0 || kindAt s.memory h.1 == some 2)).map
    fun h => granule h.1

/-- The Merkle root or adapter digest of the slot that holds an address of a WEIGHT or ADAPTER region. -/
def granuleDigest (s : State) (a : Nat) : Digest :=
  match regionAt s.memory a with
  | some n =>
    let r := regionNo s.memory n
    if r.kind = 2 then (adapterAt s ((a - s.load.adBase * unit2M) / max 1 (s.load.adUnits * unit2M))).digest
    else (slotAt s r.slot).root
  | none => 0

/-- The member of the partition that is asked for a granule: the first other rank whose slot has the same root
or digest (R158). DESIGN CHOICE: which those are is a free value (log 81). -/
def repairPeer (s : State) (a : Nat) : Option Nat :=
  (commonOf s).ranks.find? fun d => d != s.fab.id && Config.peerHolds s.free (granuleDigest s a) d

/-- The stile asks a peer for the granule (R158, R383); where no peer has it, it reads the host copy, which no
packet asks for. -/
def askGranule (s : State) (a : Nat) : State :=
  let p := repairPeer s a
  let s := { s with free := s.free + 1 }
  match p with
  | some d => issueRequest s { vc := 2, pkey := s.fab.pkey, ptype := 2, dst := d, src := s.fab.id,
                               len := 2048, addr := a } false
  | none => s

/-! ### An engine -/

/-- Descriptor `i` of an engine changed. -/
def setOp (c : Core) (eng i : Nat) (f : DmaOp → DmaOp) : Core :=
  { c with dma := upd [] c.dma eng fun l => l.modify i f }

/-- The descriptor marked as moved. -/
def markMoved (c : Core) (eng i : Nat) : Core := setOp c eng i fun op => { op with moved := true }

/-- A descriptor stalled on a granule: the words found bad in it count; a granule that was repaired and is bad
again is a failed channel (R157, R158). -/
def stallDesc (s : State) (v eng i : Nat) (d : Dx) : State :=
  match stallGranule s d with
  | some a =>
    let hits := d.hits.filter fun h => granule h.1 == a
    let s := noteErrors s s.memory hits
    if s.memory.repaired.contains a then failChannel s (physChan s.memory (chanOf a))
    else
      let s := setCore s v (setOp (coreAt s v) eng i fun op => { op with stall := some a })
      checkHits (askGranule s a) hits
  | none => s

/-- The descriptors of an engine run in issue order, as far as none is stalled; at most `n` of them. -/
def pumpDma : Nat → State → Nat → Nat → State
  | 0, s, _, _ => s
  | n + 1, s, v, eng =>
    let l := look [] (coreAt s v).dma eng
    match l.findIdx? fun op => !op.moved with
    | none => s
    | some i =>
      let op := nth {} l i
      if op.stall.isSome then s
      else match runDesc (dxOf s v) op with
      | .ok fl d =>
        let s := applyDx s v d
        let c := raise (coreAt s v) fDMA fl
        let s := checkHits (setCore s v (markMoved c eng i)) d.hits
        if progLive s then pumpDma n s v eng else s
      | .stall d => stallDesc s v eng i d
      | .flt f d => checkHits (coreFault (applyDx s v d) v { flt := f, pc := op.pc, word := op.word }) d.hits

/-! ### Issue -/

/-- The descriptor index is within the table (R94, R95). -/
def descIndexOk (c : Core) (w : Nat) : Bool := decide (c.codeEnd + 8 * bits w 51 39 + 8 ≤ 65536)

/-- The store words of the descriptor. -/
def descWords (c : Core) (w : Nat) : List Nat :=
  (List.range 8).map fun i => c.codeEnd + 8 * bits w 51 39 + i

/-- A descriptor as captured at issue (R109, R115), in tick `t`. -/
def captureDesc (t : Nat) (c : Core) (word : DWord) : DmaOp :=
  let w := word.toNat
  let d := (descWords c w).map (storeWord c)
  let w0 := (nth 0 d 0).toNat
  { pc := c.pc, word := word, desc := d
    bsrc := baseOf c (bits w 38 35), bdst := baseOf c (bits w 34 31), bcv := baseOf c (bits w0 33 30)
    pred := maskOf c (predOf w), ctx := ctxOf c (bits w0 29 27), flag := bits w 30 25, fv := bit w 24
    issued := t }

/-- A DMA instruction issued to its engine's queue, which holds at most 16. An uncorrectable descriptor word is
recorded as one of a fetch (R132; log 82). -/
def issueDma (s : State) (v : Nat) (word : DWord) : State :=
  let w := word.toNat
  let c := coreAt s v
  let eng := bits w 52 52
  if !descIndexOk c w ∨ bit w 24 ∧ (flagIsSet c (bits w 30 25) ∨ flagIsPend c (bits w 30 25)) then
    issueIllegal s v word
  else if 16 ≤ (look [] c.dma eng).length then s
  else match (descWords c w).find? (storeBad c) with
    | some i => coreFault s v { flt := storeFlt i, pc := c.pc, word := word }
    | none =>
      let op := captureDesc (now s) c word
      let c := { c with
        dma := put [] c.dma eng (look [] c.dma eng ++ [op])
        flagPend := if op.fv then c.flagPend ||| flagBit op.flag else c.flagPend }
      pumpDma 16 (setCore s v (advancePc c)) v eng

/-- A command of one DMA opcode. -/
def dmaCommand (s : State) (v op : Nat) : State :=
  issueWith s v (fun w => opOf w == op) fun s w => issueDma s v w

/-- DMA_ROW (R166). -/
def execDmaRow (v : Nat) (s : State) : Out := .next (dmaCommand s v 0x18)
/-- DMA_COL (R167). -/
def execDmaCol (v : Nat) (s : State) : Out := .next (dmaCommand s v 0x19)
/-- DMA_PRESS_IMAGE (R168). -/
def execDmaPressImage (v : Nat) (s : State) : Out := .next (dmaCommand s v 0x1A)
/-- DMA_MX_PACK (R169). -/
def execDmaMxPack (v : Nat) (s : State) : Out := .next (dmaCommand s v 0x1B)
/-- DMA_GATHER (R170). -/
def execDmaGather (v : Nat) (s : State) : Out := .next (dmaCommand s v 0x1C)

/-! ### Completion (R121) -/

/-- The oldest descriptor of an engine, moved, completes: its flag is set, and sends that waited for it
go on. -/
def completeDesc (s : State) (v eng : Nat) : State :=
  inTick s v (fun s => mapped s v) fun s =>
    let c := coreAt s v
    match look [] c.dma eng with
    | op :: r =>
      if op.moved then
        let c := { c with
          dma := put [] c.dma eng r
          flagSet := if op.fv then c.flagSet ||| flagBit op.flag else c.flagSet
          flagPend := if op.fv then c.flagPend &&& ~~~flagBit op.flag else c.flagPend }
        takeFault v (pumpXf (setCore s v c) v)
      else s
    | [] => s

/-- DMA_DESCRIPTOR_COMPLETE (R121). -/
def execDmaDescriptorComplete (v eng : Nat) (s : State) : Out := .next (completeDesc s v eng)

end Sys2Proof.Machine
end

