-- ==== Sys2Proof/Machine/Sequencer.lean ====
section
/-! DEFINITION. The sequencer's own instructions (04 R112 to R115, R119 to R128). -/

namespace Sys2Proof.Machine

open Sys2Proof

/-- A command of one sequencer opcode: what the instruction does to its core, and where it goes on. -/
def seqCommand (s : State) (v op : Nat) (run : State → DWord → State) : State :=
  issueWith s v (fun w => opOf w == op) run

/-- The core changed, and the sequencer goes on. -/
def seqNext (s : State) (v : Nat) (c : Core) : State := setCore s v (advancePc c)

/-! ### NOP, SETB, ADDB, MOP -/

/-- SETB's new value (table of SETB). -/
def setbValue (c : Core) (w : Nat) : DWord :=
  if bit w 48 then dw ((baseOf c (bits w 52 49)).toNat % 2 ^ 32 + bits w 47 16 * 2 ^ 32)
  else dw (bits w 47 16)

/-- ADDB's new value (table of ADDB). -/
def addbValue (c : Core) (w : Nat) : DWord :=
  baseOf c (bits w 48 45) + BitVec.signExtend 64 (BitVec.ofNat 32 (bits w 44 13))

/-- MOP's new value (table of MOP). -/
def mopValue (c : Core) (w : Nat) : DWord :=
  let old := (maskOf c (bits w 52 50)).toNat
  let a := maskOf c (bits w 49 47)
  let b := maskOf c (bits w 46 44)
  let imm := bits w 40 9
  match bits w 43 41 with
  | 0 => dw (old / 2 ^ 32 * 2 ^ 32 + imm)
  | 1 => dw (old % 2 ^ 32 + imm * 2 ^ 32)
  | 2 => a &&& b
  | 3 => a ||| b
  | 4 => a &&& ~~~b
  | 5 => ~~~a
  | _ => a

/-- NOP (R99). -/
def execNop (v : Nat) (s : State) : Out :=
  .next (seqCommand s v 0x30 fun s _ => seqNext s v (coreAt s v))

/-- SETB (R100). -/
def execSetb (v : Nat) (s : State) : Out :=
  .next (seqCommand s v 0x32 fun s w =>
    let c := coreAt s v
    seqNext s v (setBase c (bits w.toNat 52 49) (setbValue c w.toNat)))

/-- ADDB (R100). -/
def execAddb (v : Nat) (s : State) : Out :=
  .next (seqCommand s v 0x33 fun s w =>
    let c := coreAt s v
    seqNext s v (setBase c (bits w.toNat 52 49) (addbValue c w.toNat)))

/-- MOP (R115). -/
def execMop (v : Nat) (s : State) : Out :=
  .next (seqCommand s v 0x34 fun s w =>
    let c := coreAt s v
    seqNext s v (setMask c (bits w.toNat 52 50) (mopValue c w.toNat)))

/-! ### LOOP (R114) -/

/-- The loop that the instruction starts. -/
def loopOf (c : Core) (w : Nat) : Loop :=
  { lc := bits w 52 51, first := c.pc + 1, last := c.pc + bits w 34 19 + 1, left := bits w 50 35 }

/-- The loop may start: fewer than four are active, its counter is free, its body ends before CODE_END
and no later than the body of the enclosing loop. -/
def loopOk (c : Core) (l : Loop) : Bool :=
  decide (c.loops.length < 4) && !(c.loops.any fun x => x.lc == l.lc) && decide (l.last < c.codeEnd) &&
  (match c.loops with
   | x :: _ => decide (l.last ≤ x.last)
   | [] => true)

def runLoop (s : State) (v : Nat) (w : DWord) : State :=
  let c := coreAt s v
  let l := loopOf c w.toNat
  if loopOk c l then setCore s v { c with loops := l :: c.loops, pc := c.pc + 1 }
  else issueIllegal s v w

/-- LOOP (R114). -/
def execLoop (v : Nat) (s : State) : Out := .next (seqCommand s v 0x31 fun s w => runLoop s v w)

/-! ### OWN (R119) -/

/-- Tags staged for `n` frames from `f` on. -/
def stageTags (m : FMap Nat) (f owner : Nat) : Nat → FMap Nat
  | 0 => m
  | n + 1 => stageTags (put 0 m f (owner + 1)) (f + 1) owner n

/-- OWN (R119). -/
def execOwn (v : Nat) (s : State) : Out :=
  .next (seqCommand s v 0x2B fun s w =>
    let c := coreAt s v
    let n := bits w.toNat 41 31 + 1
    seqNext s v { c with staged := stageTags c.staged (bits w.toNat 52 42) (bits w.toNat 30 28) n })

/-! ### WAIT (R122) -/

/-- A WAIT: the flag set is cleared and the sequencer goes on; a pending flag holds it. -/
def runWait (s : State) (v : Nat) (w : DWord) : State :=
  let c := coreAt s v
  let f := bits w.toNat 52 47
  if flagIsSet c f then seqNext s v { c with flagSet := c.flagSet &&& ~~~flagBit f }
  else if flagIsPend c f then s
  else issueIllegal s v w

/-- WAIT (R122). -/
def execWait (v : Nat) (s : State) : Out := .next (seqCommand s v 0x29 fun s w => runWait s v w)

/-! ### STROKE_END and HALT (R97, R125, R128) -/

/-- The staged tags become current (R119). -/
def takeStaged (c : Core) : Core :=
  { c with tags := c.staged.foldl (fun m p => put 0 m p.1 (p.2 - 1)) c.tags, staged := [] }

/-- Where the cores of a step program start their step (R244). -/
def entryWord (s : State) : Option Nat :=
  if s.prog.step then (s.prog.table.shapes[s.srv.books.variant]?).map (·.entry) else none

/-- The core's part of a launch, at the entry word where a step begins: staged tags, flags, flag word, bindings, and the deliveries that no RECV
of the ended stroke matched (R111, R119, R124, R67, R213). A late first launch keeps what has arrived. -/
def coreLaunch (c : Core) (late : Bool) (entry : Option Nat) (ix : Nat) : Core :=
  let c := takeStaged c
  { c with phase := .run, inSetup := false, flagSet := 0, flagPend := 0, sticky := 0
           halting := false, pc := entry.getD c.pc
           binds := if late then c.binds else [], port := if late then c.port else []
           strokeIx := ix }

/-- The instruction that ends a stroke or the setup section. In the setup section it waits for the
first launch, or passes at once where that launch has come (R97); in a stroke the core waits under
R125. -/
def runEnd (s : State) (v : Nat) (halt : Bool) : State :=
  let c := { advancePc (coreAt s v) with halting := halt }
  if c.inSetup then
    if s.tick.launched then setCore s v (coreLaunch c true (entryWord s) s.tick.stroke)
    else setCore s v { c with phase := .ready, inSetup := false }
  else setCore s v { c with phase := .ending }

/-- STROKE_END (R125). -/
def execStrokeEnd (v : Nat) (s : State) : Out :=
  .next (seqCommand s v 0x28 fun s _ => runEnd s v false)

/-- HALT (R128). -/
def execHalt (v : Nat) (s : State) : Out := .next (seqCommand s v 0x37 fun s _ => runEnd s v true)

end Sys2Proof.Machine
end

