-- ==== Sys2Proof/Machine/StrokeOps.lean ====
section
/-! DEFINITION. Strokes: their ticks, the sync bound, stroke end of the device, the arrival score, the launch of a stroke, and priority flits forwarded (06 R182 to R201; 07 R220, R224; 12 R403). -/

namespace Sys2Proof.Machine

open Sys2Proof

/-! ### Ticks of a stroke (R187, R197, R199) -/

/-- Q in effect, in ticks. -/
def quantTicks (s : State) : Nat := 256 * s.tick.runQuant

/-- L(k) + B(k). -/
def budgetEnd (s : State) : Nat := s.tick.launch + s.tick.budget

/-- L(k+1) after `r` rounds (R187). -/
def launchAfter (s : State) (r : Nat) : Nat := budgetEnd s + quantTicks s * r

/-- The hold point of round `r` (R197). -/
def holdPointAt (s : State) (r : Nat) : Nat := launchAfter s (r - 1) - s.tick.lead

/-- Decision tick `r` (R199). -/
def decisionAt (s : State) (r : Nat) : Nat := launchAfter s r - 256

/-- The stroke table entry of the current stroke. -/
def strokeEnt (s : State) : StrokeEnt := nth {} s.prog.strokes s.prog.entry

/-! ### Sync (R182 to R184) -/

/-- ceil(1.5 × DEPTH). -/
def lockedBound (s : State) : Nat := (3 * s.tick.depth + 1) / 2

/-- The device is tick master and has its reference (R184). -/
def masterRef (s : State) : Bool := s.tick.master && s.pins.refTick

/-- The error bound at tick `t`; none in UNSYNC and ACQUIRING. The tick master's is 0 while it has its
reference; DEDUCED (log 83): without it, its bound grows as HOLDOVER's does. -/
def syncBound (s : State) (t : Nat) : Option Nat :=
  if masterRef s then some 0
  else match s.tick.sync with
    | .locked => some (lockedBound s)
    | .holdover => some (lockedBound s + (t - s.tick.lastBeacon) / 2 ^ 24)
    | _ => none

/-- The bound at tick `t` is within `limit`. -/
def syncOk (s : State) (t limit : Nat) : Bool :=
  match syncBound s t with
  | some b => decide (b ≤ limit)
  | none => false

/-! ### Stroke end (R125, R189, R201, R403) -/

/-- The core waits at its STROKE_END or HALT with nothing left to complete (R125). -/
def coreDone (c : Core) : Bool :=
  c.phase == .ending && (look [] c.dma 0).isEmpty && (look [] c.dma 1).isEmpty && c.xf.isEmpty &&
  c.recvs.isEmpty

/-- The core latches its record and reports stroke end (R127, R128). -/
def endCore (c : Core) : Core :=
  { c with record := dw (c.strokeIx % 2 ^ 32 + c.sticky.toNat * 2 ^ 32)
           phase := if c.halting then .halted else .ended }

/-- Virtual core `v` has reached stroke end or has halted. -/
def coreAtEnd (s : State) (v : Nat) : Bool :=
  (coreAt s v).phase == .ended || (coreAt s v).phase == .halted

def allAtEnd (s : State) : Bool := (List.range s.prog.cores).all (coreAtEnd s)

def allHalted (s : State) : Bool :=
  (List.range s.prog.cores).all fun v => (coreAt s v).phase == .halted

/-- A scheduled collective has contributions and no result yet. -/
def collBusy (s : State) : Bool :=
  s.fab.coll.any fun p => !p.2.isEmpty && (match collOf s p.1 with
    | some c => c.vc == 1
    | none => false)

/-- A value kept to 32 signed bits. -/
def sat32 (i : Int) : Int := max (-(2 ^ 31)) (min (2 ^ 31 - 1) i)

/-- What a stroke end adds to the arrival score (R403). -/
def arrivalAdd (s : State) (margin : Int) : Nat :=
  let slack : Int := (strokeEnt s).slack
  if 0 < s.tick.sent then 64
  else if 4 * margin < slack then 4
  else if 2 * margin < slack then 1
  else 0

/-- The score raised; SUSPECT is set when it reaches the threshold. -/
def addScore (s : State) (n : Nat) : State :=
  let score := satTo 16 (s.fab.score + n)
  if max 1 s.fab.thresh ≤ score ∧ !s.fab.suspect then
    postEvent { s with fab := { s.fab with score := score, suspect := true } } evSuspect score
  else { s with fab := { s.fab with score := score } }

/-- The lower of a margin and the least seen. -/
def lowerMargin (m : Int) : Option Int → Option Int
  | none => some m
  | some n => some (min m n)

/-- The device reaches stroke end. -/
def endStroke (s : State) : State :=
  let m := sat32 ((holdPointAt s 1 : Int) - (now s : Int))
  let s := { s with
    tick := { s.tick with ended := true, margin := m }
    fab := { s.fab with minMargin := lowerMargin m s.fab.minMargin } }
  addScore s (arrivalAdd s m)

/-- The device's stroke end, once all of R189 holds. -/
def settleStroke (s : State) : State :=
  if s.tick.launched && !s.tick.ended && allAtEnd s && !s.tick.rimBusy && !collBusy s then endStroke s
  else s

/-! ### The next stroke (R224, R243, R244) -/

/-- The end of the run that the current entry belongs to: of the variant's in a step program. -/
def runEndEntry (s : State) : Nat :=
  if s.prog.step then
    match s.prog.table.shapes.find? fun x => decide (x.first ≤ s.prog.entry ∧ s.prog.entry < x.first + x.entries) with
    | some x => x.first + x.entries
    | none => s.prog.strokes.length
  else s.prog.strokes.length

/-- First entry of the chosen variant's run. -/
def variantFirst (s : State) : Nat := (nth {} s.prog.table.shapes s.srv.books.variant).first

/-- Entry and repetition of the next stroke, and whether it begins a step; none after a batch program's
last stroke. -/
def nextStroke (s : State) : Option (Nat × Nat × Bool) :=
  if s.prog.rep < (strokeEnt s).rpt then some (s.prog.entry, s.prog.rep + 1, false)
  else if s.prog.entry + 1 < runEndEntry s then some (s.prog.entry + 1, 0, false)
  else if s.prog.step then some (variantFirst s, 0, true)
  else none

/-! ### A launch (R188) -/

/-- What a launch does to a core. One whose setup section goes on takes it later (R97); a halted one
has nothing to start, unless a step begins: its staged tags become current, and its flags and flag word clear
(R119, R124, R67). -/
def launchCore (s : State) (begins : Bool) (entry : Option Nat) (ix : Nat) (c : Core) : Core :=
  match c.phase with
  | .ready => coreLaunch c false entry ix
  | .ended => coreLaunch c false (if begins then entry else none) ix
  | .halted => if s.prog.step && begins then coreLaunch c false entry ix
    else { takeStaged c with flagSet := 0, flagPend := 0, sticky := 0, port := [], binds := [] }
  | _ => c

/-- Declared tokens of heath `h` under a profile (R216). -/
def heathTokens (grid cores : Nat) (profile : List Byte) (h : Nat) : Nat :=
  ((List.range cores).map fun v =>
    if heathIn grid v = h then
      let b := (nth 0 profile (v / 2)).toNat
      codeTokens (if v % 2 = 0 then b % 16 else b / 16)
    else 0).foldl (· + ·) 0

/-- The accountant loads the stroke's profile (R220, R234). -/
def loadProfile (s : State) (p : Nat) : State :=
  (List.range 48).foldl (fun s h => updHeath s h fun x =>
    { x with profile := p
             declared := heathTokens s.prog.grid s.prog.cores (nth [] s.prog.profiles p) h }) s

/-- The highest round of any hold already seen for stroke `k`. -/
def roundSeen (s : State) (k : Nat) : Nat :=
  ((s.fab.stopSeen.filter fun p => p.1 == k && decide (p.2 < 256)).map (·.2)).foldl max 0

/-- What the scrubber may zero in a step that begins: its variant's SCRUB_BYTES (R257), with what it has
already zeroed of an adapter slot, page or block that it has not finished. A page that only an uncommitted boundary
made fallow it has not begun. -/
def scrubStep (s : State) : Nat :=
  let begun := if s.load.adapters.any fun p => p.2.state == .zeroing then
      min s.srv.scrubLeft (s.load.adUnits * unit2M)
    else if (nextFallow s).isSome then min s.srv.scrubLeft (pageBytes s)
    else if s.srv.dirty.isEmpty then 0
    else min s.srv.scrubLeft blockBytes
  begun + (nth {} s.prog.table.shapes s.srv.books.variant).scrub

/-- Stroke `k` launches at tick `l` with entry `e` and repetition `rep`. Where every core has halted, the device
has reached stroke end (R128, R189). DESIGN CHOICE (log 101): surplus data in transit stays there, and reaches this
stroke's RECVs (R111). -/
def beginStroke (s : State) (k l e rep : Nat) (begins : Bool) : State :=
  let s := { s with prog := { s.prog with entry := e, rep := rep, window := [] } }
  let ent := strokeEnt s
  let r := roundSeen s k
  let s := { s with
    tick := { s.tick with
      stroke := k, launch := l, budget := ent.budget, round := r, sent := 0, check := 0
      fixed := none, ended := false, stopDue := false, launched := true
      rimBusy := s.prog.step && ent.commit, commits := s.tick.commits ++ [(k, 0)] }
    srv := if s.prog.step && begins then
        { s.srv with curStep := s.srv.curStep + 1, stepAt := l, substs := [], substFull := false
                     scrubLeft := scrubStep s }
      else s.srv }
  let entry := entryWord s
  let s := { s with cores := s.cores.map fun p => (p.1, launchCore s begins entry k p.2) }
  let s := loadProfile s ent.profile
  settleStroke (releaseWaiting { s with fab := { s.fab with
    used := [], hops := [], txNow := (devicePlan s).tx, rxNow := (devicePlan s).rx } })

/-! ### Priority flits received and forwarded (R193, R198, R363) -/

/-- A priority flit that a link delivers: on a link in UP, with the device's own key (R363, R395). -/
def prioOk (s : State) (n : Nat) (p : Prio) : Bool := linkUp s n && p.pkey == s.fab.pkey && p.pkey != 0

/-- A priority flit not taken: counted where its key is foreign. -/
def prioDrop (s : State) (n : Nat) : State := if linkUp s n then countForeign s else s

/-- The epoch is that of the running program, or of the one just stopped. -/
def epochOk (s : State) (p : Prio) : Bool :=
  p.epoch == s.prog.epoch && !s.tick.alone && (progLive s || s.prog.phase == .done)

/-- A flit of another epoch, dropped and counted (R193). -/
def countStale (s : State) : State := { s with tick := { s.tick with stale := satInc 16 s.tick.stale } }

/-- A flit already forwarded, by its stroke and its round or origin. -/
def prioSeen (s : State) (k r : Nat) : Bool := s.fab.stopSeen.contains (k, r)

/-- The flit noted, and forwarded on the other links. -/
def forwardPrio (s : State) (kind : PrioKind) (n k r : Nat) (p : Prio) : State :=
  flood { s with fab := { s.fab with stopSeen := (k, r) :: s.fab.stopSeen } } kind p (some n)

/-- Numbers that tell STOP and CANCEL from rounds in the list of flits seen. -/
def seenStop (origin : Nat) : Nat := 0x100 + origin
def seenCancel (epoch : Nat) : Nat := 0x2000000 + epoch

end Sys2Proof.Machine
end

