-- ==== Sys2Proof/Machine/LaunchOps.lean ====
section
/-! DEFINITION. The first launch of a partition: hold lead and quantum, the launch checks, the answers and the deadlines (06 R191 to R196, R511; 11 R356; 12 R394, R396; 13 R427). -/

namespace Sys2Proof.Machine

open Sys2Proof

/-! ### Management messages received (R394) -/

/-- The MAC verifies under the key that the message's session names. -/
def macOk (s : State) (a : Auth) : Bool :=
  a.mac == mgmtMac s a.session (mgmtHead a.mver a.mtype a.session a.seq ++ a.body)

/-- The highest SEQ accepted from a sender under a session. -/
def topSeqOf (s : State) (a : Auth) : Nat :=
  match s.stl.topSeq.find? fun x => x.1 == a.sender && x.2.1 == a.session with
  | some x => x.2.2
  | none => 0

/-- The session is one of the keys that messages of this kind use: an SPDM session for the fabric manager,
0 between members, 1 between partners. -/
def keyFits (k : KeyUse) (a : Auth) : Bool :=
  match k with
  | .manager => decide (2 ≤ a.session)
  | .member => a.session == 0
  | .pair => a.session == 1
  | .any => true

/-- The message verifies under a key of its kind, and its SEQ is new. -/
def authOk (s : State) (k : KeyUse) (a : Auth) : Bool :=
  keyFits k a && keyHeld s a.session && macOk s a && decide (topSeqOf s a < a.seq)

/-- A message that fails: dropped and counted. -/
def rejectMgmt (s : State) : State :=
  { s with fab := { s.fab with badMgmt := satInc 16 s.fab.badMgmt } }

/-- A message's SEQ noted. -/
def noteSeq (s : State) (a : Auth) : State :=
  { s with stl := { s.stl with
    topSeq := (a.sender, a.session, a.seq) ::
      s.stl.topSeq.filter fun x => !(x.1 == a.sender && x.2.1 == a.session) } }

/-- The answer to a message of the fabric manager or of a peer. -/
def respond (s : State) (a : Auth) (mtype status : Nat) : State :=
  sendMgmt s { dst := a.sender, mtype := mtype, session := a.session, a := status }

/-- What a management message of kind `k` does once it is accepted; one of another header version is not
interpreted (R7). A stile that does not run takes none (R445). -/
def withAuth (s : State) (k : KeyUse) (a : Auth) (f : State → State) : State :=
  if s.stl.state ≠ 1 then s
  else if !authOk s k a then rejectMgmt s
  else if a.mver ≠ 1 then respond (noteSeq s a) a mtResponse stVersion
  else f (noteSeq s a)

/-- A status that a message brings: a reserved value is never passed on (R9); it counts as MALFORMED. -/
def heldStatus (n : Nat) : Nat := if n ≤ 0x12 then n else stMalformed

/-! ### Hold lead and quantum (R194 to R196) -/

def clampTo (lo hi n : Nat) : Nat := max lo (min hi n)

/-- H. -/
def holdLead (path limit : Nat) : Nat := max 1200 (path + 2 * limit + 256)

/-- Q in units of 256 ticks. -/
def quantFor (quant lead : Nat) : Nat := max (clampTo 4 256 quant) ((lead + 255) / 256)

/-- The smallest budget of the image. -/
def leastBudget (s : State) : Nat :=
  s.prog.strokes.foldl (fun n e => min n e.budget) (2 ^ 32)

/-- H is within R195. -/
def leadOk (s : State) (h : Nat) : Bool := decide (h ≤ 4096 ∧ 2 * h ≤ leastBudget s)

/-! ### Launch checks (R396, R356) -/

/-- The reason of the verdict that holds the link: the peer's, where this side's is PEER (R353). -/
def linkReason (l : Link) : Nat := if l.reason = 8 then l.peerReason else l.reason

/-- The committed plan's entry of link `n`. -/
def planEntry (s : State) (n : Nat) : LinkEntry := nth {} (devicePlan s).links n

/-- How R356 refuses a planned link: the status. DESIGN CHOICE (log 25): a link that trains, discovers or
retrains is missing. -/
def linkRefusal (l : Link) (spare : Bool) : Option Nat :=
  match l.state with
  | .up => none
  | .quarantine => some (if linkReason l = 5 then stVersion else stMismatch)
  | .fenced => some stMismatch
  | .down => if linkReason l = 5 then some stVersion else if spare then none else some stMissing
  | .off => if spare then none else some stMissing
  | _ => some stMissing

/-- Check 6: the planned links in ascending order. -/
def plannedRefusal (s : State) : Option Nat :=
  (List.range linkCount).findSome? fun n =>
    let e := planEntry s n
    if e.planned && !e.hedge then linkRefusal (linkAt s n) e.spare else none

/-- Check 7: hedges fenced, and every link neither planned nor HEDGE carrying nothing. -/
def hedgesOk (s : State) : Bool :=
  (List.range linkCount).all fun n =>
    let l := linkAt s n
    let e := planEntry s n
    if e.hedge then l.state == .fenced
    else e.planned || l.state == .off || l.state == .down || l.state == .fenced

/-- A replica set is loaded, or the device is paired (check 9). -/
def needsSets (s : State) : Bool :=
  (commonOf s).header.paired || (List.range 8).any fun n => (slotAt s n).split != 0

/-- The input root of a batch program, formed by the device of rank 0 (R321). -/
def inputRoot (s : State) : Option Digest :=
  if s.prog.step || !formsBatchProof s then some 0 else rangeRoot s s.prog.args.inAddr s.prog.args.inBytes

/-- An uncorrectable word in the input range. -/
def inputRefusal (s : State) : Option Nat := if (inputRoot s).isNone then some stPoisoned else none

/-- The input range read, by a device that forms its root: words in error raise their channels' scores (R151). -/
def readInput (s : State) : State :=
  if s.prog.step || !formsBatchProof s then s
  else
    let s' := scoreRead s s.prog.args.inAddr s.prog.args.inBytes
    afterReads s s'

/-- The launch checks up to the input range, in their order. A setup fault refuses first (R511). -/
def planCheck (s : State) (r : LaunchRec) : Option Nat :=
  if s.prog.setupFault then some stProgFault
  else if s.fab.part ≠ .assigned then
    some (if s.fab.part = .fenced then stFenced else if s.fab.part = .running then stNoRes else stMismatch)
  else if r.planDigest ≠ s.fab.planDig then some stMismatch
  else if r.version ≠ 1 ∨ r.imgVersion ≠ 1 ∨ r.archMajor ≠ 1 ∨ r.archMinor ≠ 0 then some stVersion
  else if s.prog.phase ≠ .loaded ∨ r.imageDigest ≠ s.prog.digest then some stMismatch
  else if r.devices ≠ (commonOf s).header.n then some stMismatch
  else match plannedRefusal s with
    | some e => some e
    | none =>
      if !hedgesOk s then some stMismatch
      else if !syncOk s r.l1 r.syncLimit then some stMismatch
      else if needsSets s && !Config.setsAgree s.free then some stMismatch
      else none

/-- The launch checks; none where all pass. -/
def launchCheck (s : State) (r : LaunchRec) : Option Nat :=
  match planCheck s r with
  | some e => some e
  | none => inputRefusal s

/-- The record held: the launch is agreed. -/
def acceptRecord (s : State) (r : LaunchRec) (alone : Bool) : State :=
  { s with
    prog := { s.prog with phase := .due, record := some r, epoch := r.epoch, l1 := r.l1, acks := []
                          inRoot := (inputRoot s).getD 0 }
    tick := { s.tick with alone := alone }
    fab := { s.fab with stopSeen := [] }
    free := s.free + 1 }

/-! ### The coordinator -/

def isCoord (s : State) : Bool := s.fab.part != .unassigned && s.fab.coord == s.fab.id

/-- The device stands alone: unassigned, or the one member of its partition (R192). -/
def standsAlone (s : State) : Bool :=
  s.fab.part == .unassigned || (commonOf s).ranks.length == 1

/-- The launch record of a coordinator, with P from the plan, or of a device alone, with P = 0. -/
def makeRecord (s : State) (alone : Bool) : LaunchRec :=
  let limit := clampTo 6 64 s.tick.limit
  let path := if alone then 0 else (commonOf s).header.path
  let h := holdLead path limit
  { version := 1, epoch := (s.prog.epoch + 1) % 2 ^ 16
    l1 := now s + 40000 + (if alone then 0 else Config.launchSlack s.free)
    quant := quantFor s.tick.quant h, lead := h, path := path, syncLimit := limit, coord := s.fab.id
    planDigest := s.fab.planDig, imageDigest := s.prog.digest, devices := s.prog.devices }

/-- The launch begun at T0. -/
def startLaunch (s : State) : State :=
  let alone := standsAlone s
  let r := makeRecord s alone
  let early :=
    if s.fab.part ≠ .unassigned then planCheck s r
    else if s.prog.devices ≠ 1 then some stMismatch
    else none
  match early with
  | some e => refuseRun s e
  | none => readInput (match inputRefusal s with
    | some e => refuseRun s e
    | none =>
      if !leadOk s r.lead then refuseRun s stMismatch
      else
        let s := acceptRecord s r alone
        if alone then s
        else sendMembers s { mtype := mtLaunch, launch := some r })

/-- The other members. -/
def others (s : State) : List Nat := (commonOf s).ranks.filter (· != s.fab.id)

def ackOf (s : State) (d : Nat) : Option Nat := (s.prog.acks.find? fun p => p.1 == d).map (·.2)

/-- Every member has acknowledged. -/
def allAcked (s : State) : Bool := (others s).all fun d => ackOf s d == some stOK

/-- The status of a cancelled launch: the first refusal's, or TIMEOUT (R192). -/
def cancelStatus (s : State) : Nat :=
  match s.prog.acks.find? fun p => p.2 != stOK with
  | some p => p.2
  | none => stTimeout

/-- CANCEL sent, and the launch completed. -/
def cancelLaunch (s : State) (status : Nat) : State :=
  let s := flood s .cancel (ownPrio s) none
  refuseRun s status

/-- L1 is agreed with the other members and has not come. -/
def awaitsL1 (s : State) : Bool := s.prog.phase == .due && !s.tick.alone && isCoord s

end Sys2Proof.Machine
end

