-- ==== Sys2Proof/Machine/LoadSet.lean ====
section
/-! DEFINITION. Load sets, the requests that the load path issues, and how a load fails (09 R285 to R289, R294, R306; 12 R383, R390). -/

namespace Sys2Proof.Machine

open Sys2Proof

/-! ### Load sets (R286, R306) -/

/-- This device's member number. -/
def ownMember (s : State) (o : LoadOp) : Nat := ((setMembers s.fab.id o.set).findIdx? (· == s.fab.id)).getD 0

/-- The devices of the set but this one. -/
def otherMembers (s : State) (o : LoadOp) : List Nat := (setMembers s.fab.id o.set).filter (· != s.fab.id)

/-- A message to every other member. -/
def sendSet (s : State) (o : LoadOp) (m : MgmtOut) : State :=
  (otherMembers s o).foldl (fun s d => sendMgmt s { m with dst := d }) s

/-- The operation that takes leaves now. -/
def loading (s : State) : Option LoadOp :=
  match s.load.cur with
  | some o => if s.load.started ∧ 1 ≤ o.kind ∧ o.kind ≤ 3 then some o else none
  | none => none

/-- The operation whose READY this member has sent, started or not: what other members that have started send
belongs to it (R287, R306). -/
def pendingLoad (s : State) : Option LoadOp :=
  match s.load.cur with
  | some o => if (s.load.started || !s.load.waiting) ∧ 1 ≤ o.kind ∧ o.kind ≤ 3 then some o else none
  | none => none

/-- The links straight to the other members of the running load's set: X links and, for a whole group, Y links. -/
def loadLinks (s : State) (o : LoadOp) : List Nat :=
  (otherMembers s o).filterMap fun d =>
    if devY d = devY s.fab.id then some ((devX d + 15 - devX s.fab.id) % 8)
    else if devX d = devX s.fab.id then some (7 + (devY d + 15 - devY s.fab.id) % 8)
    else none

/-! ### Requests of the load path (R383, R390) -/

/-- Requests that wait for a tag issued while there are free ones. -/
def releaseReqs (s : State) : State :=
  s.fab.reqWait.foldl (fun s p => issueRequest s p.1 p.2) { s with fab := { s.fab with reqWait := [] } }

/-- The status of a load one of whose requests settled with `r`: a member's STATUS, or how it was lost. DESIGN
CHOICE (log 86): an address that the member refuses makes the load fail with MALFORMED. -/
def loadReqStatus (r : Nat) : Nat :=
  match r with
  | 1 => stMalformed
  | 2 => stMalformed
  | 3 => stPoisoned
  | 0xB => stLinkDown
  | r => r

/-- The first request of the load path that did not complete. -/
def failedReq (s : State) : Option Nat :=
  (s.fab.tags.find? fun p => p.2.load && !p.2.busy && p.2.result != some 0 && p.2.result != none).bind
    fun p => p.2.result

/-! ### The end of a load that fails (R289, R294) -/

/-- What one operation has gathered, given up. -/
def clearOp (l : Load) : Load :=
  { l with started := false, hashes := [], verdicts := [], reported := [], own := none, waiting := false }

/-- The load path's requests given up: none of them is waited for any more. -/
def clearReqs (s : State) : State :=
  { s with fab := { s.fab with
      reqWait := s.fab.reqWait.filter fun p => !p.2
      tags := s.fab.tags.map fun p => (p.1, { p.2 with load := false }) } }

/-- The slot goes to ZEROING, which occupies the load path; `who` is answered at its end. -/
def zeroSlot (s : State) (n : Nat) (o : LoadOp) (answer : Bool) : State :=
  let s := bumpMeas (setSlot s n { slotAt s n with state := .zeroing })
  setLoad s { clearOp s.load with cur := some { o with kind := 4, slot := n, answer := answer } }

/-- The answer of a load, with the root computed. -/
def answerLoad (s : State) (o : LoadOp) (status : Nat) : State :=
  if o.answer then answerEvent s o.who status 0 0 s.load.computed 0 else s

/-- The load fails with the first failure status. -/
def failLoad (s : State) (o : LoadOp) (status : Nat) : State :=
  let s := clearReqs (answerLoad s o status)
  let s := if s.load.started then s else setLoad s { s.load with readies := [] }
  if o.kind = 1 then zeroSlot s o.slot o false
  else if o.kind = 2 then
    let s := setSlot s o.slot { slotAt s o.slot with state := .failed }
    setLoad s { clearOp s.load with cur := none, swap := none, writing := false, matchedAt := none }
  else
    let s := setAdapter s o.ad { adapterAt s o.ad with state := .zeroing }
    setLoad s { clearOp s.load with cur := none }

/-- This member's failure, told to the others. -/
def failOwn (s : State) (o : LoadOp) (status : Nat) : State :=
  failLoad (sendSet s o { mtype := mtVerdict, a := status }) o status

/-- A started load fails once one of its requests has. -/
def settleReqs (s : State) : State :=
  match loading s, failedReq s with
  | some o, some r => failOwn s o (loadReqStatus r)
  | _, _ => s

/-- A started load whose straight path to a member is lost fails with LINK_DOWN (R289). -/
def loseLoadPath (s : State) (n : Nat) : State :=
  match loading s with
  | some o => if (loadLinks s o).contains n then failOwn s o stLinkDown else s
  | none => s

end Sys2Proof.Machine
end

