-- ==== Sys2Proof/Machine/Sync.lean ====
section
/-! DEFINITION. Beacons and the sync state (06 R180 to R183; 11 R363). -/

namespace Sys2Proof.Machine

open Sys2Proof

/-! ### BEACON -/

/-- What a beacon on link `n` says the time is on arrival, in sixteenths of a tick (R180). -/
def beaconTime (s : State) (n : Nat) (p : Prio) : Nat := 16 * p.gtc + p.frac % 16 + (linkAt s n).delay

/-- Received time less own time, in sixteenths. -/
def beaconError (s : State) (n : Nat) (p : Prio) : Int := (beaconTime s n p : Int) - (16 * now s : Int)

/-- The tick of a link's next flit slot. A slot is late where its frame needs more than its free slots (R341). -/
def slotTick (l : Link) : Nat :=
  64 * l.frame + 64 * (l.slotNo + if 5 < l.displaced then l.displaced else 0) / 125

/-- A link's frame kept aligned to a GTC that was set back: the slot sent next is the first one not before it
(R341, R376). -/
def alignFrame (t : Nat) (l : Link) : Link :=
  if slotTick l ≤ t then l
  else { l with frame := t / 64, slotNo := (125 * (t % 64) + 63) / 64, displaced := 0 }

/-- The one step of a device in ACQUIRING (R181). -/
def stepGtc (s : State) (n : Nat) (p : Prio) : State :=
  let t := beaconTime s n p / 16
  (List.range linkCount).foldl (fun s k => updLink s k (alignFrame t))
    { s with tick := { s.tick with
      gtc := t, stepped := true, good := 0, missed := 0, lastBeacon := t, slew := 0 } }

/-- A beacon counted as good or not; four in a row lock. -/
def countBeacon (s : State) (e : Int) (ok : Bool) : State :=
  let g := if ok then s.tick.good + 1 else 0
  { s with tick := { s.tick with
    good := g, missed := 0, lastBeacon := now s, slew := e / 16
    sync := if 4 ≤ g then .locked else s.tick.sync } }

/-- A beacon from the upstream link (R181 to R183). -/
def takeBeaconTime (s : State) (n : Nat) (p : Prio) : State :=
  let e := beaconError s n p
  let near := decide (-16 ≤ e ∧ e ≤ 16)
  match s.tick.sync with
  | .unsync => s
  | .acquiring => if !s.tick.stepped && !progLive s then stepGtc s n p else countBeacon s e near
  | .locked => countBeacon s e near
  | .holdover =>
    match syncBound s (now s) with
    | some b =>
      if -(16 * (b : Int)) ≤ e ∧ e ≤ 16 * (b : Int) then countBeacon s e true
      else stopOwn { s with tick := { s.tick with good := 0, missed := 0 } } fcOverrun caSync
    | none => s

/-- A received beacon: only those of the upstream link count, and the tick master takes none (R363). -/
def takeBeacon (s : State) (n : Nat) (p : Prio) : State :=
  if !prioOk s n p then prioDrop s n
  else if s.tick.master || s.tick.uplink != n || !s.tick.running then s
  else takeBeaconTime s n p

/-- BEACON (R180). -/
def execBeacon (n : Nat) (p : Prio) (s : State) : Out := .next (takeBeacon s n p)

/-! ### BEACON_SEND, BEACON_MISSED -/

/-- Ticks between beacons. -/
def beaconTicks : Nat := 2 ^ 14

/-- BEACON_SEND (R363). DEDUCED (log 83): a tick master that has lost its reference sends none, which is
what takes its whole partition to HOLDOVER (R184). -/
def execBeaconSend (s : State) : Out :=
  .next (if s.tick.running && (s.tick.sync == .locked || masterRef s) then
      let s := advance s (s.tick.sentAt + beaconTicks)
      let s := { s with tick := { s.tick with sentAt := now s } }
      flood s .beacon { pkey := s.fab.pkey, origin := s.fab.id, gtc := now s } none
    else s)

/-- LOCKED gives way to HOLDOVER. -/
def enterHoldover (s : State) : State :=
  if s.tick.sync = .locked then
    postEvent { s with tick := { s.tick with sync := .holdover, good := 0 } } evHoldover (now s)
  else s

/-- REFCLK_TICK is lost (R503): a LOCKED device, and the tick master whatever its state, enters HOLDOVER
(R184). -/
def loseReference (s : State) : State :=
  let s' := { s with pins := { s.pins with refTick := false } }
  if masterRef s then
    postEvent { s' with tick := { s.tick with sync := .holdover, good := 0, lastBeacon := now s } } evHoldover (now s)
  else enterHoldover s'

/-- BEACON_MISSED (R182). -/
def execBeaconMissed (s : State) : Out :=
  .next (if s.tick.running && !s.tick.master && s.tick.uplink != 0x7F && s.tick.sync != .unsync then
      let s := advance s (s.tick.lastBeacon + beaconTicks * (s.tick.missed + 1))
      let s := { s with tick := { s.tick with missed := satInc 8 s.tick.missed, good := 0 } }
      if 4 ≤ s.tick.missed then enterHoldover s else s
    else s)

end Sys2Proof.Machine
end

