-- ==== Sys2Proof/Machine/LinkOps.lean ====
section
/-! DEFINITION. Vaesk links: state changes, queues dropped, discovery, credits, replay, retraining and fencing (11 R343 to R375). -/

namespace Sys2Proof.Machine

open Sys2Proof

/-! ### Scheduled slots and state changes -/

/-- The slot tables assign a slot of link `n`. -/
def carriesSched (s : State) (n : Nat) : Bool :=
  ((devicePlan s).tx.any fun p => p.1 / 120 == n && bits p.2.toNat 15 14 != 0) ||
  ((devicePlan s).rx.any fun p => p.1 / 120 == n && bits p.2.toNat 15 14 != 0)

/-- A link of a launched or agreed program that carried scheduled slots carries nothing (R372, R375). -/
def stopIfSched (s : State) (n : Nat) : State :=
  if (s.prog.phase = .due ∨ s.prog.phase = .running) ∧ carriesSched s n then
    stopOwn s fcLinkDown caLink
  else s

/-- A link that leaves UP: requests whose first hop it is complete (R390), and the upstream link's
device goes to HOLDOVER (R182). -/
def leaveUp (s : State) (n : Nat) : State :=
  let s := releaseReqs (settleReqs (failTagsOf s n))
  if !s.tick.master && s.tick.uplink == n then enterHoldover s else s

/-- The link enters a state, for a reason; windows over it reset (R389). -/
def setLinkState (s : State) (n : Nat) (st : LinkState) (reason : Nat) : State :=
  let l := linkAt s n
  let s := setLink s n { l with state := st, reason := reason, since := now s }
  let s := if l.state = .up ∧ st ≠ .up then leaveUp s n else s
  if l.state ≠ st then resetWindowsOf s n else s

/-! ### Dropping (R344, R387) -/

/-- The flit ends a packet in transit from another device. -/
def endsTransit (f : TxFlit) : Bool := !f.isOwn && (f.kind == 3 || f.kind == 4)

/-- Packets in transit queued on the VCs `v` of a link, those whose first flits have left included. -/
def queuedTransit (l : Link) (p : Nat → Bool) : Nat :=
  ((l.queue.filter fun q => p q.1).map fun q => (q.2.filter endsTransit).length).foldl (· + ·) 0

/-- Packets that stand in the receive pool on the VCs `p`. -/
def poolPackets (l : Link) (p : Nat → Bool) : Nat :=
  ((l.rx.filter fun q => p q.1).map fun q =>
    (q.2.filter fun f => f.kind == 1 || f.kind == 4).length).foldl (· + ·) 0

/-- Packets in transit on a link. -/
def transitCount (l : Link) : Nat := queuedTransit l (fun _ => true) + poolPackets l fun _ => true

/-- Drops counted under R387. -/
def countDrops (s : State) (n : Nat) : Nat → State
  | 0 => s
  | k + 1 => countDrops (countDrop s (some n)) n k

/-- Queues, replay buffer and pool zeroed. A wait for a credit ends with the flit that waited: it is no wait of a
flit sent (12 R393). -/
def emptyLink (l : Link) : Link :=
  { l with
    queue := [], replay := [], rx := [], pool := 0xC00, replaying := none, nakFrom := none, nak := false
    prio := {}, credits := [], seen := [], granted := [], resv := [], owed := [], vcOper := 0, proto := 0
    msgs := [], openVc1 := false, waits := []
    nextSeq := 0, expect := 0, hasRec := false, verdict := none, peerVerdict := none, fenceDue := false }

/-- Everything on the link dropped; requests that this device originated complete with LINK_DOWN. -/
def dropAll (s : State) (n : Nat) : State :=
  let s := countDrops (failTagsOf s n) n (transitCount (linkAt s n))
  updLink s n emptyLink

/-- The link goes DOWN (R343, R344, R372). -/
def linkDown (s : State) (n reason : Nat) : State :=
  let s := setLinkState (dropAll s n) n .down reason
  let s := updLink s n fun l => { l with lanesOff := false }
  stopIfSched (loseLoadPath (postEvent s evLinkDown (n + reason % 16 * 2 ^ 8)) n) n

/-- The link goes OFF (R344). -/
def linkOff (s : State) (n : Nat) : State :=
  let s := setLinkState (dropAll s n) n .off 0
  stopIfSched (loseLoadPath (updLink s n fun l => { l with lanesOff := false, peer := none, peerReason := 0 }) n) n

/-- ENABLE set: a link that is OFF trains (R343). -/
def startLink (s : State) (n : Nat) : State :=
  let s := updLink s n fun l => { l with enable := true }
  if (linkAt s n).state = .off ∧ s.die.d48 then setLinkState s n .training 0 else s

/-! ### Link messages and discovery (R348 to R355) -/

/-- Axis and index within the axis of link `n` (R376). -/
def axisOf (n : Nat) : Nat := if n < 7 then 0 else if n < 14 then 1 else 2
def axisIndex (n : Nat) : Nat := if n < 7 then n else if n < 14 then n - 7 else n - 14

/-- This device's RECORD for link `n`. -/
def ownRecord (s : State) (n : Nat) : Disc :=
  let l := linkAt s n
  { axis := axisOf n, link := axisIndex n, planned := l.planNow.planned, vcMask := l.vcMask ||| 3
    device := s.fab.id, peer := l.planNow.peer, peerLink := l.planNow.peerLink
    identity := Config.identity, fwBuild := s.stl.build }

/-- A RECORD's 32 bytes. -/
def recordBytes (r : Disc) : List Byte :=
  leBytes 8 (0x01 + r.recVersion % 256 * 2 ^ 8 + r.protoMin % 16 * 2 ^ 16 + r.protoMax % 16 * 2 ^ 20 +
    r.archMajor % 256 * 2 ^ 24 + r.archMinor % 256 * 2 ^ 32 + r.imgMax % 256 * 2 ^ 40 +
    r.axis % 4 * 2 ^ 48 + r.link % 32 * 2 ^ 50 + b2n r.planned * 2 ^ 55 + r.vcMask.toNat * 2 ^ 56) ++
  leBytes 8 (r.device % 2 ^ 24 + r.peer % 2 ^ 24 * 2 ^ 32 + r.peerLink % 32 * 2 ^ 56) ++
  leBytes 8 r.identity.toNat ++ leBytes 8 r.fwBuild.toNat

/-- The RECORD that payload bytes spell. -/
def recordOf (bs : List Byte) : Disc :=
  let w := fun i => leNat ((bs.drop (8 * i)).take 8)
  { recVersion := bits (w 0) 15 8, protoMin := bits (w 0) 19 16, protoMax := bits (w 0) 23 20
    archMajor := bits (w 0) 31 24, archMinor := bits (w 0) 39 32, imgMax := bits (w 0) 47 40
    axis := bits (w 0) 49 48, link := bits (w 0) 54 50, planned := bit (w 0) 55
    vcMask := BitVec.ofNat 8 (bits (w 0) 63 56), device := bits (w 1) 23 0, peer := bits (w 1) 55 32
    peerLink := bits (w 1) 60 56, identity := dw (w 2), fwBuild := BitVec.ofNat 32 (w 3) }

/-- A link message to be sent on VC0: it is no packet, and waits behind none. -/
def sendLinkMsg (s : State) (n : Nat) (bs : List Byte) : State :=
  updLink s n fun l => { l with msgs := l.msgs ++
    [{ vc := 0, kind := 4, linkmsg := true, words := (bs.length + 7) / 8, data := bs, isOwn := true }] }

def sendRecord (s : State) (n : Nat) : State := sendLinkMsg s n (recordBytes (ownRecord s n))

def sendVerdict (s : State) (n v r : Nat) : State :=
  sendLinkMsg s n (leBytes 8 (0x02 + v % 4 * 2 ^ 8 + r % 16 * 2 ^ 12))

/-- The link enters DISCOVERY by its plan entry as it then stands (R378), and sends its RECORD. -/
def enterDiscovery (s : State) (n : Nat) : State :=
  let s := setLinkState s n .discovery 0
  let s := updLink s n fun l => { l with
    hasRec := false, verdict := none, peerVerdict := none, proto := 1, lanesOff := false, planNow := l.plan }
  sendRecord s n

/-- The peer that the wiring rule requires of an X or Y link (R350). -/
def wiredPeer (id n : Nat) : Nat :=
  let k := axisIndex n
  if n < 7 then id / 2 ^ 12 * 2 ^ 12 + (devX id + k + 1) % 8 * 2 ^ 6 + devY id
  else id / 2 ^ 6 * 2 ^ 6 + (devY id + k + 1) % 8

/-- The peer passes R350 and R351. -/
def peerOk (s : State) (n : Nat) (r : Disc) : Bool :=
  let l := linkAt s n
  r.device != s.fab.id && r.identity != Config.identity &&
  if n < 14 then
    r.device == wiredPeer s.fab.id n && r.axis == axisOf n && r.link == 6 - axisIndex n &&
    l.planNow.peer == wiredPeer s.fab.id n && l.planNow.peerLink == 6 - axisIndex n
  else r.device == l.planNow.peer && r.link == l.planNow.peerLink

/-- The protocol ranges overlap: this device's is version 1 alone (R349). A RECORD of a version not known
is not read (R7). -/
def protoOk (r : Disc) : Bool :=
  r.recVersion == 1 && decide (1 ≤ r.protoMin ∧ r.protoMin ≤ r.protoMax ∧ r.protoMax ≤ 3 ∧ r.protoMin ≤ 1)

/-- The verdict and its reason (R353). -/
def verdictOf (s : State) (n : Nat) (r : Disc) : Nat × Nat :=
  if !protoOk r then (2, 5)
  else if r.archMajor ≠ 1 ∨ r.imgMax ≠ 1 then (1, 5)
  else if !(linkAt s n).planNow.planned then (1, 7)
  else if !peerOk s n r then (1, 6)
  else (0, 0)

/-! ### Credits (R366, R367) -/

/-- Dedicated flits of VC `v`: 64 per unit of `FAB_VC_RESV`; 0 acts as 1. -/
def reservation (s : State) (v : Nat) : Nat :=
  64 * max 1 (bits s.fab.vcResv.toNat (4 * v + 3) (4 * v))

/-- A cumulative count raised. -/
def grant (l : Link) (k n : Nat) : Link := { l with granted := upd 0 l.granted k fun c => (c + n) % 4096 }

/-- The VCs of a set, ascending. -/
def vcsOf (m : BitVec 8) : List Nat := (List.range 8).filter fun v => m.getLsbD v

/-- Credits of a kind granted, less those that are owed. -/
def give (l : Link) (k n : Nat) : Link :=
  let o := min n (look 0 l.owed k)
  grant { l with owed := upd 0 l.owed k (· - o) } k (n - o)

/-- The reservation of a kind set: what it gains is granted. DESIGN CHOICE (log 26): a count never falls, so
what it loses is withheld as buffers come free. -/
def reserve (l : Link) (k want : Nat) : Link :=
  let have_ := look 0 l.resv k
  let l := { l with resv := put 0 l.resv k want }
  if have_ ≤ want then give l k (want - have_) else { l with owed := upd 0 l.owed k (· + (have_ - want)) }

/-- Reservations when the link goes UP, by `FAB_VC_RESV` as it then stands: of each VC of the operating set, and
the rest of the pool shared (R366). Credits of VCs that left the set are withdrawn (R355). -/
def grantUp (s : State) (n : Nat) (oper : BitVec 8) : State :=
  let sum := ((vcsOf oper).map (reservation s)).foldl (· + ·) 0
  let stays := fun k => k == 8 || oper.getLsbD k
  updLink s n fun l =>
    let l := { l with resv := l.resv.filter fun p => stays p.1, owed := l.owed.filter fun p => stays p.1 }
    let l := (vcsOf oper).foldl (fun l v => reserve l v (reservation s v)) l
    let l := reserve l 8 (0xC00 - sum)
    { l with vcOper := oper, credits := l.credits.filter fun p => stays p.1 }

/-! ### Fencing (R373, R374) -/

/-- Tags of own requests queued on VCs other than VC0. -/
def queuedTags (l : Link) : List Nat :=
  (l.queue.filter fun p => p.1 != 0).flatMap fun p => p.2.filterMap fun f =>
    if f.isOwn ∧ (f.kind = 1 ∨ f.kind = 4) then
      let q := packetOf f.vc f.pkey f.data
      if q.ptype = 2 ∨ q.ptype = 4 then some q.tag else none
    else none

/-- A flit made VOID, its payload zeroed. -/
def voidFlit (f : TxFlit) : TxFlit :=
  if f.vc = 0 then f else { f with kind := 6, words := 0, data := [] }

/-- The credit of an accepted flit granted. -/
def creditBack (l : Link) (f : TxFlit) : Link := give l (if f.shared then 8 else f.vc) 1

/-- The buffer of an accepted flit freed and its credit granted. -/
def freeFlit (l : Link) (f : TxFlit) : Link := { creditBack l f with pool := min 0xC00 (l.pool + 1) }

/-- The received flits of every VC but VC0 freed. -/
def freeOthers (l : Link) : Link :=
  let gone := (l.rx.filter fun p => p.1 != 0).flatMap (·.2)
  { gone.foldl freeFlit l with rx := l.rx.filter fun p => p.1 == 0 }

/-- The link becomes a hedge. Packets in transit that it drops count under R387. -/
def fenceLink (s : State) (n : Nat) : State :=
  let s := (queuedTags (linkAt s n)).foldl (fun s t => failTag s t stFenced) s
  let s := countDrops s n (queuedTransit (linkAt s n) (· != 0) + poolPackets (linkAt s n) (· != 0))
  let s := updLink s n fun l =>
    freeOthers { l with
      queue := l.queue.filter (fun p => p.1 == 0), openVc1 := false, fenceDue := false
      waits := l.waits.filter fun p => p.1 == 0
      replay := l.replay.map fun p => (p.1, voidFlit p.2.1, p.2.2)
      prio := {}, vcOper := 1, lanesOff := l.elec }
  postEvent (loseLoadPath (setLinkState s n .fenced 0xC) n) evFenced (n + 1)

/-- FENCE set on a link, with ELEC as asked: at once in QUARANTINE, at the resume in RETRAIN, and in UP once a
STOP that waits has gone out (R362, R373, R400). ELEC set on a hedge powers its lanes down. -/
def setFence (s : State) (n : Nat) (elec : Bool) : State :=
  let s := updLink s n fun l => { l with fence := true, elec := elec }
  match (linkAt s n).state with
  | .up => if (linkAt s n).prio.stop.isSome then updLink s n fun l => { l with fenceDue := true }
    else fenceLink s n
  | .quarantine => fenceLink s n
  | .retrain => updLink s n fun l => { l with fenceDue := true }
  | .fenced => updLink s n fun l => { l with lanesOff := l.lanesOff || elec }
  | _ => s

/-- A fence that waited for a STOP to leave. -/
def settleFence (s : State) (n : Nat) : State :=
  let l := linkAt s n
  if l.fenceDue && l.state == .up && l.prio.stop.isNone then fenceLink s n else s

/-- FENCE cleared (R374). -/
def clearFence (s : State) (n : Nat) : State :=
  let s := updLink s n fun l => { l with fence := false, fenceDue := false }
  let l := linkAt s n
  if l.state = .fenced then
    if l.lanesOff then
      setLinkState (updLink s n fun l => { emptyLink l with lanesOff := false }) n .training 0
    else enterDiscovery s n
  else s

/-- The state that the two verdicts give (R353). A link whose FENCE is set is fenced as it comes up. -/
def settleVerdicts (s : State) (n : Nat) : State :=
  let l := linkAt s n
  match l.verdict, l.peerVerdict with
  | some (v, r), some (pv, pr) =>
    let reason := if v < pv then 8 else r
    let s := updLink s n fun l => { l with peerReason := pr }
    let m := max v pv
    if m = 0 then
      let peerMask := match l.peer with
        | some p => p.vcMask
        | none => 0
      let s := grantUp (setLinkState s n .up reason) n (3 ||| ((l.vcMask ||| 3) &&& peerMask))
      if l.fence then fenceLink s n else s
    else if m = 1 then
      let s := updLink (setLinkState s n .quarantine reason) n fun l => { l with
        vcOper := 1, credits := l.credits.filter fun p => p.1 == 8 || p.1 == 0
        resv := l.resv.filter (fun p => p.1 == 8 || p.1 == 0), owed := l.owed.filter fun p => p.1 == 8 || p.1 == 0 }
      let s := if reason = 6 ∨ reason = 7 then postEvent s evQuarantine (n + reason * 2 ^ 8) else s
      let s := stopIfSched s n
      if l.fence then fenceLink s n else s
    else linkDown s n reason
  | _, _ => s

/-- A RECORD received (R348, R353, R355). -/
def takeRecord (s : State) (n : Nat) (r : Disc) : State :=
  let st := (linkAt s n).state
  if st = .discovery ∨ st = .up ∨ st = .quarantine then
    let s := if st = .discovery then s else enterDiscovery s n
    let vr := verdictOf s n r
    let s := updLink s n fun l => { l with peer := some r, hasRec := true, verdict := some vr }
    settleVerdicts (sendVerdict s n vr.1 vr.2) n
  else s

/-- A VERDICT received. -/
def takeVerdict (s : State) (n v r : Nat) : State :=
  if (linkAt s n).state = .discovery ∧ v < 3 then
    settleVerdicts (updLink s n fun l => { l with peerVerdict := some (v, r) }) n
  else s

/-- Discovery may be run again: in QUARANTINE, or in UP while no program is loaded (R355). -/
def mayRediscover (s : State) (n : Nat) : Bool :=
  (linkAt s n).state == .quarantine || ((linkAt s n).state == .up && !progLive s)

/-- REDISCOVER sent and discovery rerun. -/
def rediscoverLink (s : State) (n : Nat) : State :=
  if mayRediscover s n then enterDiscovery (sendLinkMsg s n (leBytes 8 0x03)) n else s

/-! ### Retraining and replay (R370 to R372) -/

/-- The link's lanes run and it keeps its sequence. -/
def linkRuns (l : Link) : Bool :=
  match l.state with
  | .discovery => true
  | .up => true
  | .quarantine => true
  | .fenced => !l.lanesOff
  | _ => false

def retrainWindow : Nat := 400000000

/-- Retrains within the last second. -/
def recentRetrains (s : State) (l : Link) : List Nat :=
  l.retrainAt.filter fun t => decide (now s < t + retrainWindow)

/-- A retrain, or DOWN where the limit is passed. -/
def retrain (s : State) (n : Nat) : State :=
  let l := linkAt s n
  if l.state = .up ∨ l.state = .quarantine ∨ (l.state = .fenced ∧ !l.lanesOff) then
    let recent := recentRetrains s l
    if max 1 l.mRetrain < recent.length + 1 then linkDown s n 9
    else
      let s := updLink s n fun l => { l with
        before := l.state, replaying := none, nakFrom := none
        retrains := satInc 16 l.retrains, retrainAt := now s :: recent
        retrainWin := l.retrainWin.add (now s) 1 }
      setLinkState s n .retrain l.reason
  else s

/-- The entry of the replay buffer with a sequence number. -/
def replayEntry (l : Link) (seq : Nat) : Option (Nat × TxFlit × Nat) := l.replay.find? fun p => p.1 == seq

/-- A replay started at `seq`, where that flit is unacknowledged; one replayed N times already triggers a
retrain. -/
def startReplay (s : State) (n seq : Nat) (byNak : Bool) : State :=
  let l := linkAt s n
  match replayEntry l seq with
  | none => s
  | some (_, _, k) =>
    if max 1 l.nReplay ≤ k then retrain s n
    else setLink s n { l with
      replay := l.replay.map fun p => if p.1 = seq then (p.1, p.2.1, p.2.2 + 1) else p
      replaying := some (seq, if byNak then .nak else .timer), replayWin := l.replayWin.add (now s) 1
      nakFrom := if byNak then some ((seq + 0xFFFFF) % 2 ^ 20) else none }

/-- The link resumes: every count resets, and the oldest unacknowledged flit is replayed (R371). A FENCE written
or cleared during the retrain now takes effect (R374). -/
def resumeLink (s : State) (n : Nat) : State :=
  let s := setLinkState s n (linkAt s n).before (linkAt s n).reason
  let s := updLink s n fun l => { l with
    replay := l.replay.map fun p => (p.1, p.2.1, 0)
    replaying := match l.replay with
      | p :: _ => some (p.1, .resume)
      | [] => none
    nakFrom := none, timerAt := now s
    replayWin := if l.replay = [] then l.replayWin else l.replayWin.add (now s) 1 }
  let l := linkAt s n
  if l.state = .fenced then
    (if l.fence then updLink s n fun l => { l with lanesOff := l.lanesOff || (l.fenceDue && l.elec), fenceDue := false }
     else enterDiscovery s n)
  else if l.fenceDue ∧ l.prio.stop.isNone then fenceLink s n
  else s

end Sys2Proof.Machine
end

