-- ==== Sys2Proof/Machine/ZeroOps.lean ====
section
/-! DEFINITION. Stores zeroed on a change of owner, and the state cleared with them (12 R402; 14 R462, R463). -/

namespace Sys2Proof.Machine

open Sys2Proof

/-- Plate, accumulators, tile buffers and VMP buffers of a core zeroed (R462). -/
def zeroCore (c : Core) : Core := { c with plate := {}, tiles := [], acc := [], vtiles := [], vacc := [] }

/-- The cores that satisfy `p` zeroed. -/
def zeroWhere (s : State) (p : Nat → Bool) : State :=
  { s with cores := s.cores.map fun x => if p x.1 then (x.1, zeroCore x.2) else x }

def zeroPlates (s : State) : State := zeroWhere s fun _ => true

/-! ### The host-shared window (13 R433, R434) -/

/-- A line granted to the host: newest first; the oldest is invalidated where the tracker is full. -/
def trackLine (s : State) (l : Nat) : State :=
  let h := s.hif
  let rest := h.tracker.filter (· != l)
  if rest.length < 2 ^ 20 then { s with hif := { h with tracker := l :: rest } }
  else { s with hif := { h with tracker := l :: rest.dropLast, bisnp := (rest.getLastD 0, true) :: h.bisnp } }

/-- The lines that bytes `a` to `a + n − 1` touch. -/
def linesOf (a n : Nat) : List Nat :=
  if n = 0 then [] else (List.range ((a + n - 1) / 64 + 1 - a / 64)).map fun i => a / 64 + i

/-- A host access of `bs.length` bytes at device address `a`: a write stores the bytes, a read delivers
what stands there, poisoned where a word is uncorrectable (05 R159). -/
def sharedAccess (s : State) (write : Bool) (a : Nat) (bs : List Byte) : State :=
  let s := (linesOf a bs.length).foldl trackLine s
  if write then ddrWrite s a bs
  else
    let s := { s with hif := { s.hif with
      readOut := memGet s.memory.ddr a bs.length, readBad := badWords s.memory.ddr a bs.length != [] } }
    let hits := (badWords s.memory.ddr a bs.length).map fun w => (8 * w, true)
    checkHits (scoreRead s a bs.length) (hits ++ (correctedWords s.memory.ddr a bs.length).map fun w => (8 * w, false))

/-- An access of the host that comes while DDR is being zeroed waits for the end (R463). -/
def hostAccess (s : State) (write : Bool) (a : Nat) (bs : List Byte) : State :=
  if ddrHeld s then { s with hif := { s.hif with sharedWait := s.hif.sharedWait ++ [(write, a, bs)] } }
  else sharedAccess s write a bs

/-- The accesses that waited, in their order. -/
def serveShared (s : State) : State :=
  s.hif.sharedWait.foldl (fun s x => sharedAccess s x.1 x.2.1 x.2.2) { s with hif := { s.hif with sharedWait := [] } }

/-- Every tracked line back-invalidated for writing, oldest first (R434, R463). -/
def invalidateAll (s : State) : State :=
  { s with hif := { s.hif with bisnp := s.hif.tracker.map (fun l => (l, true)) ++ s.hif.bisnp, tracker := [] } }

/-- All of DDR zeroed, spares and host-shared region included (R462, R463). -/
def zeroAllDdr (s : State) : State :=
  let s := setDdr (invalidateAll s) {}
  { s with memory := { s.memory with spares := s.memory.spares.map fun p => (p.1, { p.2 with flips := [] }) } }

/-- A zeroing of DDR given up: what it had reached is a free value of each line (15 R485). DESIGN CHOICE (log 13). -/
def zeroPartly (s : State) : State :=
  let z := Config.lineZeroed s.free
  let m := s.memory.ddr
  { setDdr s { cells := m.cells.filter (fun p => !z (p.1 / 64)), flips := m.flips.filter fun p => !z (p.1 / 8) } with
    free := s.free + 1 }

/-! ### Slots -/

/-- The region entry of model slot `n` removed. -/
def dropSlotRegion (m : Memory) (n : Nat) : Memory :=
  { m with regions := m.regions.filter fun p => !(p.2.valid && p.2.kind == 0 && p.2.slot == n) }

/-- Every model slot and adapter slot emptied, and the load path with its operations; whoever waits for
one is told CANCELLED. -/
def emptySlots (s : State) : State :=
  let ops := (s.load.cur.toList ++ s.load.queue).filter (fun o => o.kind != 2) ++ s.load.swap.toList
  let s := ops.foldl (fun s o => if o.answer then answerStatus s o.who stCancelled else s) s
  let mem := (List.range 8).foldl (fun m n => if (slotAt s n).state = .empty then m else dropSlotRegion m n)
    s.memory
  let l := s.load
  { s with memory := mem
           load := { adBase := l.adBase, adUnits := l.adUnits, adCount := l.adCount, adEnable := l.adEnable } }

/-! ### Request, tenant and proof state -/

/-- The engine's books and all that waits with them. -/
def clearRequests (v : Srv) : Srv :=
  { v with books := {}, saved := none, decision := none, journal := [], cancels := [], budgets := []
           retires := [], substs := [], substFull := false, stores := [], dirty := [], reqFlips := [], tenFlips := []
           cancelAll := false, partial_ := [] }

/-- Proofs, records, the chain and the pair. -/
def clearProofs (p : Proofs) : Proofs :=
  { p with signed := 0, inRing := 0, count := 0, store := [], held := [], head := 0, headDevs := 0, due := none
           pairState := 0, divStep := 0, ownHeads := [], peerHeads := [], bindings := [], bindSince := none
           gated := [], waitDone := none, done := none, matched := 0 }

/-- A PROGRAM_DONE that still waits for its record is written. -/
def releaseDone (s : State) : State :=
  match s.proofs.waitDone with
  | some d => answer { s with proofs := { s.proofs with waitDone := none } } s.prog.asker (progDoneWords s d)
  | none => s

/-- Request, tenant and proof state cleared (R402). -/
def clearOwner (s : State) : State :=
  let s := releaseDone s
  { s with srv := clearRequests s.srv, proofs := clearProofs s.proofs }

/-- The plan and the partition key given up (R402, R395). -/
def clearPlan (s : State) : State :=
  bumpMeas { s with fab := { s.fab with
    plan := none, pkey := 0, rank := 0, size := 0, coord := 0, partKey := none, pairKey := none
    planDig := 0, part := .unassigned, coll := [], frags := [], fragWins := [], txNow := [], rxNow := [] } }

/-- FENCE set on every link. -/
def fenceAllLinks (s : State) (elec : Bool) : State :=
  (List.range linkCount).foldl (fun s n => setFence s n (elec || (linkAt s n).elec)) s

end Sys2Proof.Machine
end

