-- ==== Sys2Proof/Machine/PlanOps.lean ====
section
/-! DEFINITION. The plan memory, the checks of a plan, its commit, teardown, fencing and aborts (12 R380 to R382, R395 to R402). -/

namespace Sys2Proof.Machine

open Sys2Proof

/-! ### PLAN_WRITE (R381) -/

/-- Bytes of the common part, its header left out. -/
def commonBytes (c : PlanCommon) : Nat :=
  4 * c.ranks.length + 2 * c.groups.length + 64 * c.gTable.length + 32 * c.colls.length +
  32 * c.digests.length

/-- A section written to plan memory: the status, and the memory. A flow, slot or link that does not exist
is MALFORMED; a common part beyond its 2 MiB is NO_RESOURCES. -/
def writePart (c : PlanCommon) (d : PlanDevice) : PlanPart → Nat × PlanCommon × PlanDevice
  | .header h => (stOK, { c with header := h }, d)
  | .ranks l => fit { c with ranks := l }
  | .groups l => fit { c with groups := l }
  | .gTable l => fit { c with gTable := l }
  | .colls l => if l.length ≤ 256 then fit { c with colls := l } else (stNoRes, c, d)
  | .digests l => fit { c with digests := l }
  | .links l => if l.length = linkCount then (stOK, c, { d with links := l }) else (stMalformed, c, d)
  | .sync m u k => (stOK, c, { d with master := m, uplink := u, depth := k })
  | .flow i f => if i < 4096 then (stOK, c, { d with flows := put 0 d.flows i f }) else (stMalformed, c, d)
  | .txSlot n i e =>
    if n < linkCount ∧ i < 120 then (stOK, c, { d with tx := put 0 d.tx (120 * n + i) e })
    else (stMalformed, c, d)
  | .rxSlot n i e =>
    if n < linkCount ∧ i < 120 then (stOK, c, { d with rx := put 0 d.rx (120 * n + i) e })
    else (stMalformed, c, d)
where
  fit (c' : PlanCommon) : Nat × PlanCommon × PlanDevice :=
    if commonBytes c' ≤ 2 ^ 21 then (stOK, c', d) else (stNoRes, c, d)

/-! ### Ranges (R380, table before R381) -/

def devOk (d : Nat) : Bool := decide (d < 2 ^ 24 ∧ devGroup d ≤ 159 ∧ devX d ≤ 7 ∧ devY d ≤ 7)

def risingFrom : Nat → List Nat → Bool
  | _, [] => true
  | lo, n :: l => decide (lo ≤ n) && risingFrom (n + 1) l

/-- An entry of the pair of groups `a` and `b`; a spare one names no link, but its fields are within their
ranges too. -/
def gEntryOk (a b : Nat) (e : GEntry) : Bool :=
  devOk e.devA && devOk e.devB && decide (e.linkA < 22 ∧ e.linkB < 22) &&
  (e.spare || (devGroup e.devA == a && devGroup e.devB == b))

def gPairOk (p : GPair) : Bool :=
  decide (p.a < p.b ∧ p.b ≤ 159 ∧ p.entries.length = 8) && p.entries.all (gEntryOk p.a p.b)

def collEntryOk (n : Nat) (c : CollEntry) : Bool :=
  decide (c.id < 256 ∧ c.op ≤ 4 ∧ c.combine ≤ 2 ∧ c.fmt < 32 ∧ fmtOk c.fmt = true ∧ c.engine < 4 ∧ 1 ≤ c.vc ∧ c.vc < 8 ∧
    c.root < n ∧ c.deliverSlot < 4096 ∧ c.deliverGroup < 2048)

def commonOk (c : PlanCommon) : Bool :=
  let h := c.header
  decide (h.version = 1 ∧ 1 ≤ h.pkey ∧ h.pkey ≤ 0xFFFE ∧ h.n = c.ranks.length ∧
    c.digests.length = c.ranks.length) &&
  c.ranks.all devOk && c.ranks.contains h.coord && c.ranks.contains h.master &&
  risingFrom 0 c.groups && c.groups.all (fun g => decide (g ≤ 159)) && c.gTable.all gPairOk &&
  c.colls.all (collEntryOk h.n)

def linkEntryOk (n : Nat) (e : LinkEntry) : Bool :=
  devOk e.peer && decide (e.peerLink < if n < 14 then 7 else 22)

/-- A transmit slot entry: free, a local flow, or forwarded from a slot of a link. -/
def txOk (e : BitVec 16) : Bool :=
  let w := e.toNat
  match bits w 15 14 with
  | 0 => true
  | 1 => true
  | 2 => decide (bits w 13 8 < linkCount ∧ bits w 6 0 < 120)
  | _ => false

def rxOk (e : BitVec 16) : Bool := bits e.toNat 15 14 != 3 && bits e.toNat 13 0 == 0

def deviceOk (d : PlanDevice) : Bool :=
  d.links.length == linkCount && (d.links.zipIdx.all fun p => linkEntryOk p.2 p.1) &&
  (decide (d.uplink < linkCount) || d.uplink == 0x7F) && decide (d.depth ≤ 4) &&
  (d.flows.all fun p => !p.2.getLsbD 15 || decide (bits p.2.toNat 5 0 < linkCount)) &&
  (d.tx.all fun p => txOk p.2) && (d.rx.all fun p => rxOk p.2)

/-! ### PLAN_COMMIT (R381, R382) -/

/-- A program is accepted or loaded and has not ended. -/
def progHeld (s : State) : Bool := progLive s || s.prog.phase == .accepted

/-- The first check that fails. -/
def commitRefusal (s : State) (digest : Digest) : Option Nat :=
  let c := s.fab.common
  if progHeld s ∨ !(s.fab.part = .unassigned ∨ s.fab.part = .assigned) then some stNoRes
  else if Config.commonDigest c ≠ digest then some stMalformed
  else match c.ranks.findIdx? (· == s.fab.id) with
    | none => some stMismatch
    | some r =>
      if Config.deviceDigest s.fab.device ≠ nth 0 c.digests r ∨ !commonOk c ∨ !deviceOk s.fab.device then
        some stMalformed
      else if s.tick.lock ∨ s.fab.lock then some stNoRes
      else none

/-- The sync entry taken (R179, R182). -/
def takeSync (s : State) (master : Bool) (uplink depth : Nat) : State :=
  { s with tick := { s.tick with
      master := master && s.lcf.eligible, uplink := uplink, depth := depth
      sync := if uplink = 0x7F then .unsync else .acquiring, good := 0, missed := 0, stepped := false } }

/-- A link's entry taken; a changed link rediscovers, and one that is no hedge is unfenced. -/
def takeLinkEntry (s : State) (n : Nat) (e : LinkEntry) : State :=
  let changed := decide ((linkAt s n).plan ≠ e)
  let s := updLink s n fun l => { l with plan := e }
  let s := if (linkAt s n).fence && !e.hedge then clearFence s n else s
  if changed then rediscoverLink s n else s

/-- The plan takes effect. -/
def commitPlan (s : State) (digest key : Digest) : State :=
  let c := s.fab.common
  let d := s.fab.device
  let s := { s with fab := { s.fab with
    plan := some (c, d), pkey := c.header.pkey, rank := (c.ranks.findIdx? (· == s.fab.id)).getD 0
    size := c.header.n, coord := c.header.coord, partKey := some key
    pairKey := if c.header.paired then some c.header.pairKey else none
    planDig := digest, part := .assigned, coll := [] } }
  let s := (d.links.zipIdx).foldl (fun s p => takeLinkEntry s p.2 p.1) s
  bumpMeas (zeroPlates (takeSync s d.master d.uplink d.depth))

/-! ### Answers that wait -/

/-- A request of the fabric manager whose RESPONSE comes later. -/
def waitResponse (s : State) (a : Auth) : State :=
  { s with fab := { s.fab with waitMgmt := s.fab.waitMgmt ++ [(a.sender, a.session)] } }

def respondAll (s : State) : State :=
  s.fab.waitMgmt.foldl (fun s p => sendMgmt s { dst := p.1, mtype := mtResponse, session := p.2, a := stOK })
    { s with fab := { s.fab with waitMgmt := [] } }

/-! ### Fences (R399, R400) -/

def linksOf (m : BitVec 36) : List Nat := (List.range linkCount).filter fun n => m.getLsbD n

/-- FENCE set on the links named. -/
def fenceNamed (s : State) (m elec : BitVec 36) : State :=
  (linksOf m).foldl (fun s n => setFence s n (elec.getLsbD n)) s

/-- The device is fenced. -/
def fenceDevice (s : State) : State :=
  let s := fenceAllLinks s false
  postEvent { s with fab := { s.fab with part := .fenced } } evFenced 0

/-- The fences that wait take effect, and whoever asked is answered. -/
def applyFences (s : State) : State :=
  let p := s.prog
  let s := { s with prog := { p with fencing := false, fencePorts := 0, fenceElec := 0 } }
  let s := fenceNamed s p.fencePorts p.fenceElec
  respondAll (if p.fencing then fenceDevice s else s)

def fencesWait (s : State) : Bool := s.prog.fencing || s.prog.fencePorts != 0

/-- The stop point of the current stroke with an abort or a fence waiting (R397, R399, R400). -/
def stopPointNow (s : State) : State :=
  if s.tick.launched && s.tick.stopDue then
    let s := if s.prog.abort.isSome then stopOwn s 0 caAbort else stopOwn s fcFenced caFenced
    if fencesWait s then applyFences s else s
  else if fencesWait s && !s.tick.launched then applyFences s
  else s

/-! ### Aborts (R397) -/

/-- The abort's answer: an EVENT, or a RESPONSE to the member that forwarded it. -/
def answerAbort (s : State) (w : Asker) (status : Nat) : State :=
  if w.op = 0x12 then sendMgmt s { dst := w.tag.toNat, mtype := mtResponse, a := status }
  else answerStatus s w status

/-- The launch is given up before it comes: no stop is recorded (R397), and the head of a program already
loaded is signed (R327). -/
def giveUpLaunch (s : State) : State :=
  let loaded := progLive s
  let s := if s.prog.phase = .due ∧ !s.tick.alone then flood s .cancel (ownPrio s) none else s
  endRun s { status := stCancelled } loaded

/-- An abort carried out by the coordinator or by a device alone. -/
def takeAbort (s : State) (w : Asker) : State :=
  if !progHeld s ∨ s.prog.abort.isSome then answerAbort s w stAlready
  else if !s.tick.launched ∧ !(s.prog.phase = .due ∧ s.prog.l1 ≤ now s + 8192) then
    answerAbort (giveUpLaunch s) w stOK
  else { s with prog := { s.prog with abort := some w } }

/-- ABORT_PROGRAM as this device carries it out: the coordinator and a device alone at once, another member
by way of the coordinator (R397). -/
def abortProgram (s : State) (w : Asker) : State :=
  if standsAlone s ∨ isCoord s then takeAbort s w
  else if s.fab.abortFor.isSome then answerStatus s w stAlready
  else sendMgmt { s with fab := { s.fab with abortFor := some w } } { dst := s.fab.coord, mtype := mtAbort }

end Sys2Proof.Machine
end

