-- ==== Sys2Proof/Machine/PowerOps.lean ====
section
/-! DEFINITION. Power domains, temperature and throttling, voltage, self-test of heaths, the effective grade and the end of bring-up (01 R16 to R19, R26, R30; 15 R469 to R482). -/

namespace Sys2Proof.Machine

open Sys2Proof

/-! ### Throttling (R478 to R480) -/

/-- The effective throttle level of heath `h` (R477, R478). -/
def levelOf (s : State) (h : Nat) : Nat :=
  let x := heathAt s h
  max (max x.therm s.pwr.level) (if x.avsHeld then 4 else 0)

def anyThrottled (s : State) : Bool := (List.range 48).any fun h => (heathAt s h).on && levelOf s h != 0

/-- `PWR_THROTTLE` as of now. -/
def throttleNow (s : State) : Nat :=
  if anyThrottled s then (s.pwr.throttle + (now s - s.pwr.throttleAt)) % 2 ^ 64 else s.pwr.throttle

/-- `PWR_THROTTLE` brought up to date, before a level changes. -/
def settleThrottle (s : State) : State :=
  { s with pwr := { s.pwr with throttle := throttleNow s, throttleAt := now s } }

/-- The cap level from the loop's own level and the floor of PCAP_N. -/
def capLevel (s : State) : Nat := max s.pwr.loop (if s.pins.pcap then min 16 s.pwr.fast else 0)

/-- The cap level set anew, after the loop or the floor has changed. -/
def setCapLevel (s : State) : State := { s with pwr := { s.pwr with level := capLevel s } }

/-! ### Voltage (R475, R476) -/

def clampVid (n : Nat) : Nat := clampTo 10 60 n

/-- What is added to a heath's fused VID: the guard band for its temperature; nothing while AVS_EN is clear (R476,
R487). -/
def vidBand (s : State) (x : Heath) : Nat := if s.pwr.avsEn then Config.guardBand x.temp else 0

/-- The VIDs at which the stile holds a heath's core rail and SRAM rail. -/
def coreVid (s : State) (h : Nat) (x : Heath) : Nat := clampVid (Config.fusedVid h + vidBand s x)
def sramTarget (s : State) (h : Nat) (x : Heath) : Nat := clampVid (Config.fusedSram h + vidBand s x)

/-- The rails of a heath set; HTH_AVS shows the core rail's. DESIGN CHOICE (log 19): a droop raises both rails, and
both are lowered together. -/
def setRails (x : Heath) (core sram : Nat) : Heath := { x with vid := core, railVid := core, sramVid := sram }

/-- The stile sets the heath's rails: it runs, and the rails answer. A rail that does not keeps its voltage (R477). -/
def railsAnswer (s : State) (h : Nat) : Bool :=
  s.stl.state == 1 && (heathAt s h).on && !(heathAt s h).avsHeld

/-- A heath's rails at their targets: with AVS_EN set, never lower than they are; with it clear, at the fused VID. -/
def holdRails (s : State) (h : Nat) (x : Heath) : Heath :=
  if !s.pwr.avsEn then setRails x (coreVid s h x) (sramTarget s h x)
  else setRails x (max x.railVid (coreVid s h x)) (max x.sramVid (sramTarget s h x))

/-- The rails of a heath follow its guard band. -/
def followBand (s : State) (h : Nat) : State :=
  if railsAnswer s h ∧ (heathAt s h).railVid ≠ 0 then updHeath s h (holdRails s h) else s

/-! ### Temperature (R479, R482) -/

/-- The reading of a sensor: 0 to 47 heaths, 48 to 59 rim dies. -/
def sensorOf (s : State) (n : Nat) : Nat := if n < 48 then (heathAt s n).temp else look 0 s.pwr.rimTemp n

/-- The hottest sensor, the lowest number first. -/
def hottestOf (s : State) : Nat :=
  (List.range 60).foldl (fun b n => if sensorOf s b < sensorOf s n then n else b) 0

/-- A reading taken, with what is shown of all of them, and the guard band that follows it. 95 °C is 380 in steps of
0.25 °C. -/
def noteTemp (s : State) (n temp : Nat) : State :=
  let t := temp % 1024
  let s := if n < 48 then followBand (updHeath s n fun x => { x with temp := t }) n
    else { s with pwr := { s.pwr with rimTemp := put 0 s.pwr.rimTemp n t } }
  let b := hottestOf s
  { s with pwr := { s.pwr with hottest := b, temp := sensorOf s b }
           pins := { s.pins with alert := decide (380 ≤ sensorOf s b) } }

/-- The thermal level of a heath set, from now on. -/
def setTherm (s : State) (h level : Nat) : State :=
  updHeath (settleThrottle s) h fun x => { x with therm := level, thermAt := now s }

/-! ### Spare maps, grades (R17 to R19, R26) -/

/-- The effective spare map of a heath. -/
def spareMap (x : Heath) : BitVec 27 := x.fuse ||| x.runtime ||| x.selfFail

def clearBits (m : BitVec 27) : Nat := ((List.range 27).filter fun p => !m.getLsbD p).length

/-- Healthy cores of a heath; one whose domain reads OFF has none. -/
def healthyOf (x : Heath) : Nat := if x.state = .off then 0 else clearBits (spareMap x)

/-- The home memory rim die of heath `h` (R499). -/
def homeMr (h : Nat) : Nat := if h / 8 < 3 then h % 8 / 2 else 4 + h % 8 / 2

/-- A failed channel that no spare serves. -/
def chanLost (s : State) : Bool :=
  s.memory.chans.any fun p => p.2.failed &&
    !((spareAt s (p.1 / 10)).pos == p.1 % 10 && (spareAt s (p.1 / 10)).progress == 100)

/-- The effective grade: 1 A, 2 B, 0xF NONE (R18, R31, R33). -/
def gradeOf (s : State) : Nat :=
  let least := ((List.range 48).map fun h => healthyOf (heathAt s h)).foldl min 27
  if s.die.lost ≠ 0 ∨ s.die.rimLost ≠ 0 ∨ !s.die.d48 ∨ chanLost s then 0xF
  else if s.die.fusedGrade = 1 ∧ 25 ≤ least then 1
  else if 24 ≤ least then 2
  else 0xF

/-- `IDC_GRADE` brought up to date. DESIGN CHOICE (log 101): MIN_HEALTHY changes with EFFECTIVE_GRADE, at READY and at
each program load. -/
def settleGrade (s : State) : State :=
  { s with die := { s.die with
      effGrade := gradeOf s
      minHealthy := ((List.range 48).map fun h => healthyOf (heathAt s h)).foldl min 27 } }

/-- A heath whose domain is powered follows its effective spare map: fewer than 24 healthy cores lose it, and
exactly 24 leave it SHORT on a device fused grade A (R19, R30). -/
def regradeHeath (s : State) (h : Nat) : State :=
  let x := heathAt s h
  if x.state = .off ∨ x.state = .lost then s
  else if clearBits (spareMap x) < 24 then loseHeath s h 5
  else updHeath s h fun x => { x with
    state := if s.die.fusedGrade = 1 ∧ clearBits (spareMap x) = 24 then .short else .up }

/-- The effective grade derived at a program load (R18). -/
def deriveGrade (s : State) : State := settleGrade ((List.range 48).foldl regradeHeath s)

/-! ### Self-test of a heath (R16, R17, R19, R26, R28, R30) -/

/-- Spare rows that replace failed ones: at most 8 in a bank (R136). -/
def rowsUsed (r : SelfTest) : Nat := (r.rows.map fun x => min 8 x.2.2).foldl (· + ·) 0

/-- The cores that fail their test: those found failing, and those with a bank of more than 8 failed rows
(R136). -/
def failedCores (r : SelfTest) : BitVec 27 :=
  r.rows.foldl (fun m x => if 8 < x.2.2 then m ||| BitVec.ofNat 27 (2 ^ x.1) else m) r.coreFails

/-- The cause for which the test loses the heath, if any: of several, the first in this order (R30; log 82). -/
def testLoss (s : State) (h : Nat) (r : SelfTest) : Option Nat :=
  let d := homeMr h
  if !r.pllLock then some 2
  else if !r.ctrlOk then some 3
  else if !r.meshOk then some 4
  else if clearBits ((heathAt s h).fuse ||| (heathAt s h).mirror ||| failedCores r) < 24 then some 5
  else if !r.hasherOk ∧ (!r.spareOk ∨ s.die.rimLost.getLsbD d ∨
      ((look none s.die.spareHash d).isSome ∧ look none s.die.spareHash d ≠ some h)) then some 6
  else none

/-- The heath as its test leaves it, the runtime map written back from the stile's mirror. -/
def testedHeath (s : State) (h : Nat) (r : SelfTest) (x : Heath) : Heath :=
  let x := { x with
    runtime := x.mirror, selfFail := failedCores r, subst := !r.hasherOk
    spareRows := rowsUsed r % 4096, delay := r.delay + 4, spread := s.tick.spread }
  let x := if x.avsHeld then { x with vid := x.railVid } else holdRails s h x
  { x with state := if s.die.fusedGrade = 1 ∧ clearBits (spareMap x) = 24 then .short else .up }

/-- The outcome of a heath's test. A spare leaf pipeline once assigned stays assigned (R17; log 82). -/
def settleTest (s : State) (h : Nat) (r : SelfTest) : State :=
  match testLoss s h r with
  | some c => loseHeath (updHeath s h fun x => { x with
      runtime := x.mirror, selfFail := failedCores r }) h c
  | none =>
    let s := updHeath s h (testedHeath s h r)
    if r.hasherOk then s
    else { s with die := { s.die with spareHash := put none s.die.spareHash (homeMr h) (some h) } }

/-! ### READY (R471, R472) -/

/-- Every heath has been tested, or is lost. -/
def heathsSettled (s : State) : Bool := (List.range 48).all fun h => (heathAt s h).state != .off

/-- Every channel is trained, or has failed. -/
def chansSettled (s : State) : Bool := (List.range 80).all fun c => (chanAt s c).trained || (chanAt s c).failed

/-- The firmware brings the device up: it runs, D48 is there, and POWER_OFF has not been accepted. -/
def bringsUp (s : State) : Bool := s.pwr.boot == 2 && s.die.d48 && s.stl.state == 1 && !s.guard.off

/-- READY, once every step has ended. -/
def settleReady (s : State) : State :=
  if bringsUp s ∧ s.memory.zeroed ∧ heathsSettled s ∧ chansSettled s then
    let s := settleGrade s
    { s with pwr := { s.pwr with boot := 3, ready := true } }
  else s

/-! ### Domains switched off (R466, R473) -/

/-- A heath without power: what its registers held is gone, but for the fuse map, the stile's mirror and
what the stile holds of its rails (R476, R477). A lost heath stays LOST with its cause (R34; log 82). -/
def darkHeath (x : Heath) : Heath :=
  { fuse := x.fuse, mirror := x.mirror, vid := x.vid, avsFault := x.avsFault, railVid := x.railVid
    sramVid := x.sramVid, avsHeld := x.avsHeld, lowerAt := x.lowerAt, lossLatch := x.lossLatch
    state := if x.state = .lost then .lost else .off, lossCause := x.lossCause }

/-- A heath reset with its power on (R483); a lost one stays lost (R31). -/
def freshHeath (x : Heath) : Heath := { darkHeath x with runtime := x.mirror, on := x.on }

/-- A die whose D48 has no power: no tick, no issue, no grade (R485). -/
def darkRim (s : State) : State :=
  let s := freezeAll s
  { s with die := { s.die with d48 := false, effGrade := 0xF }
           tick := { s.tick with running := false } }

end Sys2Proof.Machine
end

