-- ==== Sys2Proof/Machine/GuardOps.lean ====
section
/-! DEFINITION. The guard sequencer: the effect of each guaranteed operation, requests that meet, and completion (14 R464 to R467; 15 R473, R485). -/

namespace Sys2Proof.Machine

open Sys2Proof

/-- The operation codes of `STL_GUARD.OP`. -/
def guardCode : GuardOp → Nat
  | .freeze => 1
  | .fenceAll => 2
  | .hostFlush => 3
  | .dump => 4
  | .heathReset => 5
  | .zeroizeKeys => 6
  | .zeroizePlates => 7
  | .zeroizeDdr => 8
  | .powerOff => 9

def guardOfCode (n : Nat) : Option GuardOp :=
  [GuardOp.freeze, .fenceAll, .hostFlush, .dump, .heathReset, .zeroizeKeys, .zeroizePlates, .zeroizeDdr,
    .powerOff].find? fun o => guardCode o == n

/-! ### FREEZE and FENCE_ALL -/

/-- Issue stops and queued work is abandoned; a program that runs is stopped with cause LATE. -/
def guardFreeze (s : State) : State :=
  if s.tick.launched then stopOwn s fcOverrun caLate else abandonAll (freezeAll s)

/-- FREEZE before another operation, where a program runs (R466). -/
def freezeFirst (s : State) : State := if s.tick.launched then guardFreeze s else s

def guardFenceAll (s : State) : State :=
  let s := if s.tick.launched then stopOwn s fcFenced caFenced else abandonAll (freezeAll s)
  let s := fenceAllLinks s true
  if s.fab.part = .fenced ∨ s.fab.part = .teardown then s
  else postEvent { s with fab := { s.fab with part := .fenced } } evFenced 0

/-! ### HOST_FLUSH -/

/-- A synthetic completion: written where the ring has room, else discarded and counted. -/
def synthTo (s : State) (a : Asker) (ws : List DWord) : State :=
  if !fnActive s a.fn ∨ (fnAt s a.fn).gen ≠ a.gen then s
  else if ringRoom (ringAt s a.fn (64 + a.cring)) && !((fnAt s a.fn).held.any fun h => h.ring == a.cring) then
    writeEntry s a.fn (64 + a.cring) ws
  else { s with guard := { s.guard with discarded := satInc 16 s.guard.discarded } }

/-- The synthetic EVENT of a descriptor. -/
def synthEvent (s : State) (a : Asker) (status : Nat) : State :=
  synthTo s a (compWords (compWord0 ctEvent status a.sring 0 a.op) a.tag [])

/-- Held completions of every function written while their rings have room. -/
def flushHeld (s : State) : State :=
  (List.range 64).foldl (fun s f =>
    if fnActive s f then drainFn s f else s) s

/-- Whoever waits for the answer of a descriptor other than LAUNCH_PROGRAM. -/
def unanswered (s : State) : List Asker :=
  let ops := (s.load.cur.toList ++ s.load.queue).filter (fun o => o.kind != 2) ++ s.load.swap.toList
  (ops.filter fun o => o.answer).map (·.who) ++
  (s.srv.cancels ++ s.srv.budgets ++ s.srv.retires ++
    (s.srv.decision.toList ++ s.srv.journal ++ s.proofs.gated).flatMap fun (d : Decision) => d.later).map (·.who) ++
  s.prog.abort.toList.filter (fun a => a.op != 0x12) ++ s.fab.abortFor.toList

/-- The decisions of committed steps, with nothing left to write to the host. -/
def muteDecision (d : Decision) : Decision :=
  { d with later := [], outs := d.outs.map fun o => { o with silent := true } }

/-- Nothing that has been answered waits any more. -/
def muteAll (s : State) : State :=
  let quiet := fun (o : LoadOp) => { o with answer := false }
  { s with
    load := { s.load with cur := s.load.cur.map quiet, swap := s.load.swap.map quiet
                          queue := s.load.queue.map quiet }
    srv := { s.srv with cancels := [], budgets := [], retires := [], cancelAll := false
                        journal := s.srv.journal.map muteDecision }
    proofs := { s.proofs with gated := [] }
    prog := { s.prog with abort := none }
    fab := { s.fab with abortFor := none } }

/-- Every request entry ended (R465). -/
def flushRequests (s : State) (status : Nat) : State :=
  (s.srv.books.reqs.map (·.1)).foldl (fun s i =>
    let r := reqAt s i
    if r.state = .free then s
    else
      let s := if r.noProof ∨ doneHeld s i then s else synthTo s (askerOf r) (requestDone r i status false)
      releaseReq s i) s |> unlinkHeld

/-- A program that has not had its PROGRAM_DONE ends, and one whose PROGRAM_DONE waits gets it. -/
def flushProgram (s : State) (status : Nat) : State :=
  let a := s.prog.asker
  let waits := s.proofs.waitDone.isSome || progHeld s
  let s := if progHeld s then
      let s := endRun { s with prog := { s.prog with asker := { fn := 64 } } } { status := status } false
      { s with prog := { s.prog with asker := a } }
    else s
  let d := { s.proofs.waitDone.getD {} with status := status }
  let s := { s with proofs := { s.proofs with waitDone := none } }
  if waits then synthTo s a (progDoneWords s d) else s

def guardHostFlush (s : State) : State :=
  let s := flushHeld s
  let status := if s.fab.part = .fenced then stFenced else stCancelled
  let s := flushRequests s status
  let s := (unanswered s).foldl (fun s a => synthEvent s a status) s
  flushProgram (muteAll s) status

/-! ### DUMP -/

/-- The 4 KiB units of the snapshot. -/
def dumpUnits (n : Nat) : Nat := 1 + Config.dumpSize n % 2048

/-- The snapshot that has been captured written to the host's memory. -/
def writeDump (s : State) : State :=
  let s := (List.range s.guard.units).foldl (fun s i =>
    hostWrite s (s.guard.dumpBase * 4096 + 4096 * i)
      ((Config.dumpUnit s.guard.dumpDraw i ++ List.replicate 4096 0).take 4096)) s
  { s with guard := { s.guard with written := true } }

/-- A snapshot that waits is written once the host's link is up. -/
def settleDump (s : State) : State :=
  if s.guard.captured && !s.guard.written && s.hif.link.rate != 0 then writeDump s else s

/-- The snapshot captured, and written to the host where its link is up. -/
def guardDump (s : State) : State :=
  settleDump { s with
    guard := { s.guard with captured := true, written := false, units := dumpUnits s.free, dumpDraw := s.free }
    free := s.free + 1 }

/-! ### HEATH_RESET and zeroing -/

/-- A heath reset; a loaded program keeps its mapping (R27). -/
def resetHeath (s : State) (x : Heath) : Heath :=
  let y := freshHeath x
  if progLive s then { y with map := x.map, healthy := x.healthy } else y

/-- The heaths named, reset: their plates zeroed, their self-test due. A reset ends a debug unlock (R457). -/
def guardHeathReset (s : State) : State :=
  let s := relock (settleThrottle s)
  let hit := fun h => s.guard.arg.getLsbD h && (heathAt s h).on
  let s := zeroWhere s fun v => hit (heathOf s v)
  (List.range 48).foldl (fun s h =>
    if s.guard.arg.getLsbD h && (heathAt s h).on then updHeath s h (resetHeath s) else s) s

/-- Keys cleared; a signing is abandoned (R467). -/
def zeroKeys (s : State) : State :=
  afterReads s <| skipHead { s with
    stl := { s.stl with identity := false, sessions := [], ideKeys := false }
    fab := { s.fab with partKey := none, pairKey := none }
    hif := { s.hif with link := { s.hif.link with ideIo := false, ideCm := false } } }

/-! ### POWER_OFF (R473) -/

def allDark (s : State) : State :=
  let s := (List.range 48).foldl (fun s h => updHeath s (47 - h) darkHeath) (settleThrottle s)
  darkRim { s with cores := [], transit := [] }

def guardPowerOff (s : State) : State := allDark (guardFenceAll (guardFreeze s))

/-! ### Requests -/

/-- What an operation does as it starts. A zeroing of DDR takes back the host's lines, and holds every access until it
ends (R463). -/
def guardEffect (s : State) : GuardOp → State
  | .freeze => guardFreeze s
  | .fenceAll => guardFenceAll s
  | .hostFlush => guardHostFlush (freezeFirst s)
  | .dump => guardDump s
  | .heathReset => guardHeathReset (freezeFirst s)
  | .zeroizeKeys => zeroKeys (freezeFirst s)
  | .zeroizePlates => zeroPlates (freezeFirst s)
  | .zeroizeDdr => invalidateAll (freezeFirst s)
  | .powerOff => guardPowerOff s

/-- An operation's completion, shown in `STL_GUARD_STATUS`. -/
def guardDone (s : State) (op : GuardOp) (status : Nat) : State :=
  { s with guard := { s.guard with lastOp := guardCode op, lastStatus := status } }

def startGuard (s : State) (op : GuardOp) : State :=
  guardEffect { s with guard := { s.guard with running := some op } } op

/-- The operation is available: with D48 unpowered, only two are (R465). -/
def guardAvailable (s : State) (op : GuardOp) : Bool := s.die.d48 || op == .zeroizeKeys || op == .powerOff

/-- POWER_OFF is accepted: later requests are refused, and the cause is recorded. -/
def acceptOff (s : State) (op : GuardOp) : State :=
  if op = .powerOff then { s with guard := { s.guard with off := true }, pwr := { s.pwr with cause := 4 } }
  else s

/-- A request that reaches the sequencer (R467). -/
def guardRequest (s : State) (op : GuardOp) : State :=
  if s.guard.off then guardDone s op stNoRes
  else if !guardAvailable s op then guardDone s op stFnDisabled
  else if guardKnown s op then s
  else if s.guard.running = none ∧ s.guard.side = [] then startGuard (acceptOff s op) op
  else if op = .freeze ∨ op = .fenceAll then
    guardEffect { s with guard := { s.guard with side := s.guard.side ++ [op] } } op
  else if s.guard.queue.length < 7 then
    let s := acceptOff s op
    { s with guard := { s.guard with queue := s.guard.queue ++ [op] } }
  else guardDone s op stNoRes

/-- The next queued operation that is available starts; those before it end with FUNCTION_DISABLED. -/
def startNext (s : State) : State :=
  let ok := fun op => guardAvailable s op
  let s := (s.guard.queue.takeWhile fun op => !ok op).foldl (fun s op => guardDone s op stFnDisabled) s
  match s.guard.queue.dropWhile fun op => !ok op with
  | op :: q => startGuard { s with guard := { s.guard with queue := q } } op
  | [] => { s with guard := { s.guard with queue := [] } }

/-- What an operation does as it ends: DDR reads as zeros, and the accesses that waited for it are served. -/
def guardEnd (s : State) (op : GuardOp) : State := if op = .zeroizeDdr then serveShared (zeroAllDdr s) else s

/-- What an operation that is abandoned leaves (15 R485). -/
def guardAbandon (s : State) (op : GuardOp) : State := if op = .zeroizeDdr then zeroPartly s else s

/-- An operation finishes: one that runs alongside first. -/
def guardComplete (s : State) : State :=
  match s.guard.side, s.guard.running with
  | op :: rest, r =>
    let s := guardDone { s with guard := { s.guard with side := rest } } op stOK
    if r = none ∧ rest = [] then startNext s else s
  | [], some op =>
    let s := guardDone { s with guard := { s.guard with
      running := none, signalled := s.guard.signalled || op == .powerOff } } op stOK
    startNext (guardEnd s op)
  | [], none => s

/-- A thermal power-off: what runs or waits is abandoned with FUNCTION_DISABLED (R479, R485). -/
def thermalOff (s : State) : State :=
  if s.guard.off ∧ s.guard.running = some .powerOff then s
  else
    let ops := s.guard.running.toList ++ s.guard.side ++ s.guard.queue
    let s := s.guard.running.toList.foldl guardAbandon s
    let s := ops.foldl (fun s op => guardDone s op stFnDisabled) s
    startGuard { s with
      guard := { s.guard with running := none, side := [], queue := [], off := true }
      pwr := { s.pwr with cause := 3 } } .powerOff

/-- A heath whose controller does not answer is power-cycled; one that still fails is lost (R466). -/
def cycleHeath (s : State) (h : Nat) (recovers : Bool) : State :=
  let s := zeroWhere (settleThrottle s) fun v => heathOf s v == h
  let s := updHeath s h (resetHeath s)
  if recovers then s else loseHeath s h 3

/-! ### Teardown (12 R402) -/

/-- Steps 1 to 3 begin: fences, slots emptied, state cleared, and the stile has the guard zero the stores (14 R464).
A program that waits for its launch ends. -/
def beginTeardown (s : State) : State :=
  let s := if progHeld s then refuseRun s stCancelled else s
  let s := respondAll (fenceAllLinks s false)
  let s := clearOwner (emptySlots s)
  let s := guardRequest (guardRequest s .zeroizePlates) .zeroizeDdr
  bumpMeas { s with
    fab := { s.fab with part := .teardown }
    prog := { s.prog with fencing := false, fencePorts := 0, fenceElec := 0 } }

/-- The stores have been zeroed. -/
def storesZeroed (s : State) : Bool := !guardKnown s .zeroizePlates && !guardKnown s .zeroizeDdr

/-- FENCE cleared on every link that has it (12 R402). -/
def unfenceAll (s : State) : State :=
  (List.range linkCount).foldl (fun s n => if (linkAt s n).fence then clearFence s n else s) s

/-- Steps 4 and 5; a teardown that UNFENCE began clears the links' fences (12 R402). -/
def endTeardown (s : State) : State :=
  let s := if s.fab.unfencing then unfenceAll s else s
  respondAll (clearPlan { s with fab := { s.fab with unfencing := false } })

end Sys2Proof.Machine
end

