-- ==== Sys2Proof/Machine/FuseOps.lean ====
section
/-! DEFINITION. Limited-change settings: the checks of a fuse command, the changes it spends, and what it programs (01 R20, R29; 14 R448, R457 to R461). -/

namespace Sys2Proof.Machine

open Sys2Proof

/-- What remains of a command's setting; none where the command has no such count. -/
def leftOf (s : State) (cmd : Nat) : Option Nat :=
  match cmd with
  | 1 => some s.lcf.left
  | 2 => some s.die.downbinLeft
  | 3 => some s.lcf.commits
  | 4 => some s.lcf.revLeft
  | 5 => some s.lcf.rollLeft
  | 6 => some s.lcf.eligLeft
  | 7 => some s.lcf.lockLeft
  | _ => none

/-- The changes that a command spends. -/
def changesOf (s : State) (cmd value : Nat) : Nat := if cmd = 5 then value - s.lcf.rollback else 1

/-- A lifecycle state may be entered (lifecycle table, R458). -/
def lifecycleOk (s : State) (target : Nat) : Bool :=
  if target = 3 then s.fab.part == .unassigned
  else target == s.lcf.state + 1 && (if target = 1 then s.lcf.lockFuse else s.stl.cert)

/-- The command's own conditions. -/
def fuseOk (s : State) (cmd value : Nat) : Bool :=
  match cmd with
  | 1 => decide (s.lcf.state < 3) && lifecycleOk s value
  | 2 => s.die.fusedGrade == 1
  | 4 => decide (value < 16) && (List.range 16).any fun k => k != value && !s.lcf.revoked.getLsbD k
  | 5 => decide (s.lcf.rollback < value ∧ value ≤ s.stl.svn)
  | _ => true

/-- The status with which a command is refused, if it is. -/
def fuseRefusal (s : State) (cmd value confirm : Nat) : Option Nat :=
  if cmd = 0 ∨ 8 < cmd then some stMalformed
  else if progHeld s ∨ s.lcf.busy then some stNoRes
  else if cmd = 1 ∧ s.lcf.state = 3 then some stMalformed
  else match leftOf s cmd with
    | none => none
    | some l =>
      if l = 0 then some stNoRes
      else if confirm ≠ l then some stMalformed
      else if !fuseOk s cmd value then some stMalformed
      else if l < changesOf s cmd value then some stNoRes
      else none

/-- The changes spent (R460). -/
def spend (s : State) (cmd n : Nat) : State :=
  let l := s.lcf
  match cmd with
  | 1 => { s with lcf := { l with left := l.left - n } }
  | 2 => { s with die := { s.die with downbinLeft := s.die.downbinLeft - n } }
  | 3 => { s with lcf := { l with commits := l.commits - n } }
  | 4 => { s with lcf := { l with revLeft := l.revLeft - n } }
  | 5 => { s with lcf := { l with rollLeft := l.rollLeft - n } }
  | 6 => { s with lcf := { l with eligLeft := l.eligLeft - n } }
  | 7 => { s with lcf := { l with lockLeft := l.lockLeft - n } }
  | _ => s

/-- The guard's operations that RETIRED applies first, asked of it by the stile (R458, R464). -/
def retireZeroes (s : State) : State :=
  guardRequest (guardRequest (guardRequest s .zeroizeKeys) .zeroizePlates) .zeroizeDdr

/-- They have ended. -/
def retireReady (s : State) : Bool :=
  s.lcf.run != (1, 3) || (!guardKnown s .zeroizeKeys && !guardKnown s .zeroizePlates && !guardKnown s .zeroizeDdr)

/-- A fuse command, written to `LCF_CMD_ARG` and `LCF_CMD` with GO: refused with a status, or begun. The changes that it
spends show in measurement 4 (R454). RETIRED first zeroizes keys, plates and DDR (R458). -/
def fuseCommand (s : State) (cmd value confirm : Nat) : State :=
  let s := { s with lcf := { s.lcf with cmd := cmd % 16, value := value % 2 ^ 11, confirm := confirm % 2 ^ 11 } }
  match fuseRefusal s cmd value confirm with
  | some e => { s with lcf := { s.lcf with status := e } }
  | none =>
    let s := if (leftOf s cmd).isSome then bumpMeas (spend s cmd (changesOf s cmd value)) else s
    let s := if cmd = 1 ∧ value = 3 then retireZeroes s else s
    { s with lcf := { s.lcf with run := (cmd, value), busy := true, go := true } }

/-- The fused spare maps with the runtime maps added (R29). -/
def commitMaps (s : State) : State :=
  { s with lcf := { s.lcf with maps := (List.range 48).foldl (fun m h =>
      put 0 m h (look 0 m h ||| (heathAt s h).runtime)) s.lcf.maps } }

/-- What a command programs. A device fused grade B has no heath that reads SHORT (R19). -/
def programFuse (s : State) (cmd value : Nat) : State :=
  let l := s.lcf
  match cmd with
  | 1 => { s with
      lcf := { l with state := value
                      wrapped := if value = 1 then true else if value = 3 then false else l.wrapped }
      stl := { s.stl with identity :=
        if value = 1 then true else if value = 3 then false else s.stl.identity } }
  | 2 => (List.range 48).foldl (fun s h => updHeath s h fun x =>
      { x with state := if x.state = .short then .up else x.state })
      { s with die := { s.die with fusedGrade := 2 } }
  | 3 => commitMaps s
  | 4 => { s with lcf := { l with revoked := l.revoked ||| BitVec.ofNat 16 (2 ^ value) } }
  | 5 => { s with lcf := { l with rollback := value } }
  | 6 => { s with lcf := { l with eligible := !l.eligible }
                  tick := { s.tick with master := s.tick.master && !l.eligible } }
  | 7 => { s with lcf := { l with lockFuse := true } }
  | _ => relock s

/-- The running command ends with its setting at the new value or, where it was cut short, possibly at the
old one (R460). Measurement 4 has changed where the setting has (R454). -/
def endFuse (s : State) (takes : Bool) : State :=
  if s.lcf.busy then
    let s := if takes then programFuse s s.lcf.run.1 s.lcf.run.2 else s
    let s := if s.lcf.run.1 = 8 ∨ !takes then s else bumpMeas s
    { s with lcf := { s.lcf with run := (0, 0), busy := false, go := false, status := stOK } }
  else s

end Sys2Proof.Machine
end

