-- ==== Sys2Proof/Machine/Fuses.lean ====
section
/-! DEFINITION. The fuse commands (01 R20, R29; 14 R448, R457 to R461). -/

namespace Sys2Proof.Machine

open Sys2Proof

/-- LIFECYCLE_ADVANCE (R458). -/
def execLifecycleAdvance (target confirm : Nat) (s : State) : Out := .next (fuseCommand s 1 target confirm)

/-- DOWNBIN (R20). -/
def execDownbin (confirm : Nat) (s : State) : Out := .next (fuseCommand s 2 0 confirm)

/-- SPARE_COMMIT (R29). -/
def execSpareCommit (confirm : Nat) (s : State) : Out := .next (fuseCommand s 3 0 confirm)

/-- REVOKE_KEY (R459). -/
def execRevokeKey (key confirm : Nat) (s : State) : Out := .next (fuseCommand s 4 key confirm)

/-- ROLLBACK_ADVANCE (R448). -/
def execRollbackAdvance (count confirm : Nat) (s : State) : Out := .next (fuseCommand s 5 count confirm)

/-- TICK_ELIG_TOGGLE (R461). -/
def execTickEligToggle (confirm : Nat) (s : State) : Out := .next (fuseCommand s 6 0 confirm)

/-- DEBUG_LOCK (R459). -/
def execDebugLock (confirm : Nat) (s : State) : Out := .next (fuseCommand s 7 0 confirm)

/-- DEBUG_RELOCK (R457). -/
def execDebugRelock (s : State) : Out := .next (fuseCommand s 8 0 0)

/-- FUSE_COMMAND_COMPLETE (R460); RETIRED not before the guard has zeroized (R458). -/
def execFuseCommandComplete (s : State) : Out := .next (if retireReady s then endFuse s true else s)

end Sys2Proof.Machine
end

