-- ==== Sys2Proof/Machine/Guard.lean ====
section
/-! DEFINITION. The guard's commands (14 R464 to R467). The path by which a request arrives changes nothing. -/

namespace Sys2Proof.Machine

open Sys2Proof

/-- FREEZE (R465). -/
def execFreeze (_path : GuardPath) (s : State) : Out := .next (guardRequest s .freeze)

/-- FENCE_ALL (R465). -/
def execFenceAll (_path : GuardPath) (s : State) : Out := .next (guardRequest s .fenceAll)

/-- HOST_FLUSH (R465). -/
def execHostFlush (_path : GuardPath) (s : State) : Out := .next (guardRequest s .hostFlush)

/-- DUMP (R465). -/
def execDump (_path : GuardPath) (s : State) : Out := .next (guardRequest s .dump)

/-- HEATH_RESET (R465). -/
def execHeathReset (_path : GuardPath) (s : State) : Out := .next (guardRequest s .heathReset)

/-- ZEROIZE_KEYS (R465). -/
def execZeroizeKeys (_path : GuardPath) (s : State) : Out := .next (guardRequest s .zeroizeKeys)

/-- ZEROIZE_PLATES (R465). -/
def execZeroizePlates (_path : GuardPath) (s : State) : Out := .next (guardRequest s .zeroizePlates)

/-- ZEROIZE_DDR (R465). -/
def execZeroizeDdr (_path : GuardPath) (s : State) : Out := .next (guardRequest s .zeroizeDdr)

/-- POWER_OFF (R473). -/
def execPowerOff (_path : GuardPath) (s : State) : Out := .next (guardRequest s .powerOff)

/-- GUARD_OP_COMPLETE (R464). -/
def execGuardOpComplete (s : State) : Out := .next (guardComplete s)

/-- HEATH_CONTROLLER_TIMEOUT (R466): during a zeroing operation. -/
def execHeathControllerTimeout (h : Nat) (recovers : Bool) (s : State) : Out :=
  .next (if h < 48 ∧ (s.guard.running = some .zeroizePlates ∨
      (s.guard.running = some .heathReset ∧ s.guard.arg.getLsbD h)) then cycleHeath s h recovers else s)

end Sys2Proof.Machine
end

