-- ==== Sys2Proof/Machine/StileOps.lean ====
section
/-! DEFINITION. The stile: the firmware image and its checks, measurements, SPDM answers, debug tokens and the watchdog (14 R443 to R457). -/

namespace Sys2Proof.Machine

open Sys2Proof

/-! ### The firmware image (R446, R447) -/

/-- 64-bit word `i` of bytes. -/
def wordAt (bs : List Byte) (i : Nat) : Nat := leNat ((bs.drop (8 * i)).take 8)

def fwSvn (bs : List Byte) : Nat := bits (wordAt bs 0) 50 40
def fwKey (bs : List Byte) : Nat := bits (wordAt bs 0) 55 52
def fwBuild (bs : List Byte) : Nat := bits (wordAt bs 1) 31 0
def fwBodyBytes (bs : List Byte) : Nat := bits (wordAt bs 1) 63 32
def fwBody (bs : List Byte) : List Byte := (bs.drop 1024).take (fwBodyBytes bs)
def fwDigest (bs : List Byte) : Digest := digestOfBytes (bs.drop 16)

/-- The header's reserved bits and bytes are zero. -/
def fwReserved (bs : List Byte) : Bool :=
  bits (wordAt bs 0) 51 51 == 0 && bits (wordAt bs 0) 63 56 == 0 &&
  ((bs.drop 48).take 16).all (· == 0) && ((bs.drop 452).take 60).all (· == 0) &&
  ((bs.drop 896).take 128).all (· == 0)

/-- The modulus and the exponent of the key in the header. -/
def fwModulus (bs : List Byte) : List Byte := (bs.drop 64).take 384
def fwExponent (bs : List Byte) : List Byte := (bs.drop 448).take 4

/-- The checks of R447 in their order; the exponent is little-endian (R5). -/
def fwOk (s : State) (bs : List Byte) : Bool :=
  decide (1024 ≤ bs.length) &&
  wordAt bs 0 % 2 ^ 32 == 0x46574B51 && bits (wordAt bs 0) 39 32 == 1 && fwReserved bs &&
  !s.lcf.revoked.getLsbD (fwKey bs) &&
  sha256 (fwModulus bs ++ fwExponent bs) == Config.romKey (fwKey bs) &&
  pssVerify (beNat (fwModulus bs)) (leNat (fwExponent bs)) (bs.take 512) ((bs.drop 512).take 384) &&
  decide (s.lcf.rollback ≤ fwSvn bs) &&
  decide (fwBodyBytes bs ≤ 2 ^ 22 ∧ (fwBody bs).length = fwBodyBytes bs) &&
  sha256 (fwBody bs) == fwDigest bs

/-- A chain in slot 0 passes: its leaf holds the device's own public key (R452). -/
def chainPasses (s : State) (chain : List Byte) : Bool := s.lcf.wrapped && chain != [] && Config.chainOk chain

/-- The firmware starts: the body is copied into stile RAM, measurements 2 and 3 are recorded, the identity key is
unwrapped in PROVISIONED and DEPLOYED, and slot 0's chain is checked (R447, R449, R452, R454). -/
def startFirmware (s : State) (bs : List Byte) (source : Nat) : State :=
  bumpMeas { s with
    stl := { s.stl with
      state := 1, source := source, build := BitVec.ofNat 32 (fwBuild bs), svn := fwSvn bs
      keyIndex := fwKey bs, meas2 := fwDigest bs, romWait := false
      ram := memPut {} 0 (fwBody bs), ramBytes := (fwBody bs).length
      identity := s.lcf.wrapped && (s.lcf.state == 1 || s.lcf.state == 2), cert := chainPasses s s.stl.chain }
    pwr := { s.pwr with boot := 1, fwAt := now s } }

/-- An image read from flash passes. -/
def flashOk (s : State) (f : FetchBytes) : Bool := f.status == .ok && fwOk s f.bytes

/-! ### Words of the fuse registers (R468, R34) -/

def lcfStateWord (s : State) : Nat := s.lcf.state % 4 + s.lcf.left % 4 * 4
def lcfRollbackWord (s : State) : Nat := s.lcf.rollback % 2 ^ 11 + s.lcf.rollLeft % 2 ^ 11 * 2 ^ 11
def lcfRevokeWord (s : State) : Nat := s.lcf.revoked.toNat + s.lcf.revLeft % 32 * 2 ^ 16
def lcfEligWord (s : State) : Nat := b2n s.lcf.eligible + s.lcf.eligLeft % 4 * 2
def lcfDebugWord (s : State) : Nat :=
  b2n s.lcf.lockFuse + s.lcf.lockLeft % 2 * 2 + b2n s.lcf.unlocked * 4 + s.lcf.scope.toNat * 8
def lcfCommitsWord (s : State) : Nat := s.lcf.commits % 64
def idcGradeWord (s : State) : Nat :=
  s.die.fusedGrade % 16 + s.die.effGrade % 16 * 2 ^ 4 + s.die.minHealthy % 32 * 2 ^ 8 +
  s.die.downbinLeft % 2 * 2 ^ 13

/-- `LCF_FUSE_DIGEST` (R454). -/
def fuseDigest (s : State) : Digest :=
  let g := idcGradeWord s
  sha256 (leBytes 4 (lcfStateWord s) ++ leBytes 4 (lcfRollbackWord s) ++ leBytes 4 (lcfRevokeWord s) ++
    leBytes 4 (lcfEligWord s) ++ leBytes 4 (g % 16 + bits g 13 13 * 2 ^ 13) ++ leBytes 4 0 ++
    leBytes 4 (lcfDebugWord s % 4) ++ leBytes 4 (lcfCommitsWord s) ++
    digestBytes (sha256 ((List.range 48).flatMap fun h => leBytes 4 (heathAt s h).fuse.toNat)))

/-! ### Measurements (R454) -/

/-- The adapter table digest (R297). -/
def adapterDigest (s : State) : Digest :=
  sha256 ((List.range 1024).flatMap fun a =>
    let x := adapterAt s a
    if x.state = .live ∨ x.state = .retiring then digestBytes x.digest else List.replicate 32 0)

/-- Measurement `i`. Three have no byte layout in the manual: free values of their content. -/
def measurement (s : State) (i : Nat) : Digest :=
  if i = 1 then Config.measurement 1 0
  else if i = 2 then s.stl.meas2
  else if i = 3 then Config.measurement 3 (s.stl.svn + s.stl.keyIndex * 2 ^ 11 + s.stl.build.toNat * 2 ^ 15)
  else if i = 4 then fuseDigest s
  else if i = 5 then Config.measurement 5 (lcfDebugWord s)
  else if i = 6 then (if progLive s then s.prog.digest else 0)
  else if i ≤ 14 then (if (slotAt s (i - 7)).state = .empty then 0 else (slotAt s (i - 7)).root)
  else if i = 15 then adapterDigest s
  else if s.fab.part = .unassigned then 0
  else s.fab.planDig

/-! ### SPDM (R451 to R453) -/

/-- The identity key is usable: present, and no debug unlock in force (R449, R457). -/
def identityUsable (s : State) : Bool := s.stl.identity && !s.lcf.unlocked

/-- An answer kept, one draw spent. -/
def spdmAnswer (s : State) (bs : List Byte) : State :=
  { s with stl := { s.stl with answer := bs }, free := s.free + 1 }

/-- An ERROR of SPDM. -/
def spdmError (s : State) (code : Byte) : State := spdmAnswer s [0x7F, code]

def spdmBusy : Byte := 0x03
def spdmInvalid : Byte := 0x01
def spdmUnspecified : Byte := 0x05
def spdmVersion : Byte := 0x41
def spdmUnexpected : Byte := 0x04
def spdmNoSession : Byte := 0x02

/-- An answer signed with the identity key. -/
def spdmSigned (s : State) (bs : List Byte) : State :=
  if identityUsable s then spdmAnswer s (bs ++ signatureBytes s bs) else spdmError s spdmUnspecified

/-- The sessions that have not missed their heartbeat. -/
def liveSessions (s : State) : List Session := s.stl.sessions.filter (sessionLives s)

/-- The session `id` changed. -/
def updSession (s : State) (id : Nat) (f : Session → Session) : State :=
  { s with stl := { s.stl with sessions := s.stl.sessions.map fun x => if x.id = id then f x else x } }

/-- A request that only a session carries. -/
def inSession (s : State) (id : Nat) (f : State → State) : State :=
  if id = 0 then spdmError s spdmUnexpected else spdmAnswer (f s) (Config.spdmAnswer s.free)

/-- What an SPDM request does: the sessions that it ends or renews, the certificate that it asks for or installs (R451,
R452), and its answer. -/
def spdmServe (s : State) (m : SpdmMsg) : State :=
  match m.ask with
  | .plain => spdmAnswer s (Config.spdmAnswer s.free)
  | .signed => spdmSigned s (Config.spdmAnswer s.free)
  | .heartbeat => inSession s m.session id
  | .keyUpdate => inSession s m.session fun s => updSession s m.session fun x => { x with updates := x.updates + 1 }
  | .endSession => inSession s m.session fun s =>
      { s with stl := { s.stl with sessions := s.stl.sessions.filter fun x => x.id != m.session } }
  | .getCsr =>
    let s := if identityUsable s then { s with stl := { s.stl with csr := true } } else s
    spdmSigned s (Config.spdmAnswer s.free)
  | .setCertificate chain =>
    if s.stl.csr then
      spdmAnswer { s with stl := { s.stl with chain := chain, cert := chainPasses s chain } } (Config.spdmAnswer s.free)
    else spdmError s spdmUnexpected

/-- An SPDM request of an accepted version; one in a session renews its heartbeat, and none comes in a session that is
not held. -/
def spdmTake (s : State) (m : SpdmMsg) : State :=
  let s := { s with stl := { s.stl with sessions := liveSessions s } }
  if m.session = 0 then spdmServe s m
  else if (sessionOf s m.session).isNone then spdmError s spdmNoSession
  else spdmServe (updSession s m.session fun x => { x with since := now s }) m

/-- The session that a key exchange sets up. -/
def newSession (s : State) (id : Nat) : Session :=
  { id := id, ems := Config.exportSecret s.free, period := Config.heartbeat s.free, since := now s }

/-- A session set up, or refused (R453). -/
def exchangeKeys (s : State) (session : Nat) (anchor : Digest) (valid : Bool) : State :=
  if s.stl.anchor = 0 ∨ anchor ≠ s.stl.anchor ∨ !valid ∨ !identityUsable s then spdmError s spdmUnspecified
  else if 8 ≤ (liveSessions s).length then spdmError s spdmBusy
  else if session ≤ 1 ∨ keyHeld s session then s
  else
    let s := { s with stl := { s.stl with sessions := newSession s session :: liveSessions s } }
    spdmSigned s (Config.spdmAnswer s.free)

/-- The measurement blocks asked for: one, all, or their number. -/
def measurementBlocks (s : State) (index : Nat) : Option (List Byte) :=
  if index = 0 then some [16]
  else if index ≤ 16 then some (digestBytes (measurement s index))
  else if index = 0xFF then some ((List.range 16).flatMap fun i => digestBytes (measurement s (i + 1)))
  else none

/-! ### Debug tokens (R455 to R457) -/

def tokenScope (bs : List Byte) : BitVec 3 := BitVec.ofNat 3 (bits (wordAt bs 0) 10 8)

/-- The lifecycle state allows a token of this scope. -/
def tokenState (s : State) (bs : List Byte) : Bool :=
  s.lcf.state == 0 || s.lcf.state == 1 || (s.lcf.state == 2 && !(tokenScope bs).getLsbD 2)

def tokenOk (s : State) (bs : List Byte) : Bool :=
  bs.length == 448 && bits (wordAt bs 0) 7 0 == 1 &&
  pssVerify Config.debugModulus 65537 (bs.take 64) ((bs.drop 64).take 384) &&
  wordAt bs 1 == Config.uid.toNat && leNat ((bs.drop 16).take 16) == s.stl.nonce.toNat &&
  !progHeld s && tokenState s bs

/-- A token submitted: a fresh nonce in any case; scopes open after keys and plates are zeroed. -/
def submitToken (s : State) (bs : List Byte) : State :=
  let ok := tokenOk s bs
  let s := { s with stl := { s.stl with nonce := Config.debugNonce s.free }, free := s.free + 1 }
  if ok then
    let s := zeroPlates (zeroKeys s)
    bumpMeas { s with lcf := { s.lcf with
      unlocked := true, scope := tokenScope bs, until_ := now s + bits (wordAt bs 4) 31 0 } }
  else s

/-! ### The test access port (R455, R457) -/

/-- The port and the instrument network are open: no DEBUG_LOCK fused, or RETIRED. -/
def portOpen (s : State) : Bool := !s.lcf.lockFuse || s.lcf.state == 3

/-- A scope that an accepted debug token has opened. -/
def scopeOpen (s : State) (b : Nat) : Bool := s.lcf.unlocked && s.lcf.scope.getLsbD b

/-- The use is answered: closed, the port answers only IDCODE, BYPASS and the token register, and what a token
opened. -/
def tapAnswers (s : State) (u : TapUse) : Bool :=
  portOpen s || match u with
    | .idcode | .bypass | .tokenReg => true
    | .boundary => scopeOpen s 0
    | .instrument => scopeOpen s 1
    | .scan => scopeOpen s 2

/-- What a scan chain of `n` bits through the key storage in D49 reads (R457). -/
def keyScan (n : Nat) : List Bool := List.replicate n false

/-! ### The watchdog (R444, R445) -/

/-- Watchdog resets within the last 2^32 ticks, this one among them. -/
def recentResets (s : State) : List Nat := now s :: s.stl.wdtAt.filter fun t => decide (now s < t + 2 ^ 32)

/-- Stile RAM with further bits of its code words in error. -/
def upsetRam (m : Mem) (l : List (Nat × BitVec 72)) : Mem :=
  { m with flips := l.foldl (fun f p => upd 0 f p.1 (· ^^^ p.2)) m.flips }

/-- The RAM copy of the firmware body matches measurement 2: its words are read through their code, and one that cannot
be corrected fails the check (R443, R444). -/
def ramMatches (s : State) : Bool :=
  badWords s.stl.ram 0 s.stl.ramBytes == [] && sha256 (memGet s.stl.ram 0 s.stl.ramBytes) == s.stl.meas2

/-- Requests of the fabric manager that are being handled dropped, with the fences that wait for a stop point (R444). -/
def dropRequests (s : State) : State :=
  { s with fab := { s.fab with waitMgmt := [], unfencing := false }
           prog := { s.prog with fencing := false, fencePorts := 0, fenceElec := 0 } }

/-- A watchdog reset: what the stile was doing is lost, and it restarts or stays halted. As any reset, it ends a debug
unlock (R457). -/
def watchdogReset (s : State) (upsets : List (Nat × BitVec 72)) : State :=
  let r := recentResets s
  let s := relock (dropRequests (endFuse { s with free := s.free + 1 } (Config.fuseTakes s.free)))
  let s := { s with stl := { s.stl with ram := upsetRam s.stl.ram upsets } }
  afterReads s <| skipHead { s with stl := { s.stl with
      wdtResets := satInc 8 s.stl.wdtResets, wdtAt := r
      state := if ramMatches s ∧ r.length < 3 then 1 else 3 } }

end Sys2Proof.Machine
end

