-- ==== Sys2Proof/Machine/Power.lean ====
section
/-! DEFINITION. Power, temperature and voltage (15 R475 to R481; 01 R30 to R33; 17 R503). -/

namespace Sys2Proof.Machine

open Sys2Proof

/-! ### Lost heaths and rim dies -/

/-- A heath that is powered and not lost is lost. -/
def loseRunning (s : State) (h cause : Nat) : State :=
  if (heathAt s h).state = .lost then s else loseHeath s h cause

/-- Every heath lost. -/
def loseAll (s : State) (cause : Nat) : State := (List.range 48).foldl (fun s h => loseRunning s h cause) s

/-- HEATH_LOSS (R30): its PLL, its controller or its mesh. A heath lost in its test holds up nothing (R472). -/
def execHeathLoss (h cause : Nat) (s : State) : Out :=
  .next (if h < 48 ∧ (heathAt s h).on ∧ 1 ≤ cause ∧ cause ≤ 6 then settleReady (loseRunning s h cause) else s)

/-- RIM_DIE_LOSS (R33): reported by a device event, whose code the manual does not give (log 90). DESIGN CHOICE
(log 101): its DETAIL is the index of the die, 0 to 7 for MR0 to MR7 and 8 to 11 for LR0 to LR3. -/
def execRimDieLoss (d : Nat) (s : State) : Out :=
  .next (if d < 12 then
      let s := postEvent { s with free := s.free + 1 } (Config.rimLossEvent s.free).toNat d
      { s with die := { s.die with rimLost := s.die.rimLost ||| BitVec.ofNat 12 (2 ^ d), effGrade := 0xF } }
    else s)

/-! ### Temperature -/

/-- A reading `temp` of a sensor: POWER_OFF at 100 °C on any, level 16 at once at 95 °C on a heath's (R479); below
that, `step`. -/
def thermalReading (s : State) (sensor temp : Nat) (step : State → State) : State :=
  let s := noteTemp s sensor temp
  let t := sensorOf s sensor
  if 400 ≤ t then thermalOff s
  else if 380 ≤ t ∧ sensor < 48 then setTherm s sensor 16
  else step s

/-- One level up, at 90 °C or above: every 2^16 ticks. -/
def thermUp (h : Nat) (s : State) : State :=
  let x := heathAt s h
  if 360 ≤ x.temp ∧ x.therm < 16 then setTherm (advance s (x.thermAt + 2 ^ 16)) h (x.therm + 1) else s

/-- One level down, below 88 °C: every 2^18 ticks. -/
def thermDown (h : Nat) (s : State) : State :=
  let x := heathAt s h
  if x.temp < 352 ∧ 0 < x.therm then setTherm (advance s (x.thermAt + 2 ^ 18)) h (x.therm - 1) else s

/-- THERMAL_LEVEL_RISE (R479). -/
def execThermalLevelRise (h temp : Nat) (s : State) : Out :=
  .next (if h < 48 ∧ (heathAt s h).on then thermalReading s h temp (thermUp h) else s)

/-- THERMAL_LEVEL_FALL (R479). -/
def execThermalLevelFall (h temp : Nat) (s : State) : Out :=
  .next (if h < 48 ∧ (heathAt s h).on then thermalReading s h temp (thermDown h) else s)

/-- THERMAL_TRIP (R479). -/
def execThermalTrip (sensor temp : Nat) (s : State) : Out :=
  .next (if sensor < 60 then thermalReading s sensor temp id else s)

/-! ### The power cap -/

/-- What an interval with CAP_EN set does to the loop: P over the cap raises the cap level by 1, and P below 95 % of
it for four intervals in a row lowers it by 1 (R480). -/
def capLoop (p : Pwr) (watts : Nat) : Pwr :=
  let p := { p with power := watts % 2 ^ 14 }
  if p.cap < watts then
    { p with unmet := decide (p.level = 16), loop := min 16 (p.level + 1), below := 0 }
  else if 100 * watts < 95 * p.cap then
    if p.below + 1 = 4 then { p with unmet := false, loop := p.loop - 1, below := 0 }
    else { p with unmet := false, below := p.below + 1 }
  else { p with unmet := false, below := 0 }

/-- The core rail currents that the telemetry gives, in A (R487). -/
def noteAmps (s : State) (amps : List Nat) : State :=
  (List.range 48).foldl (fun s h =>
    if (heathAt s h).on then updHeath s h fun x => { x with current := nth 0 amps h % 4096 } else s) s

/-- One interval of the telemetry, and of the cap loop while CAP_EN is set (R480). -/
def capInterval (s : State) (m : Telemetry) : State :=
  let s := settleThrottle (noteAmps s m.amps)
  let s := { s with pwr := { s.pwr with capAt := now s } }
  if s.pwr.capEn then setCapLevel { s with pwr := capLoop s.pwr m.watts } else s

/-- POWER_CAP_INTERVAL (R480). -/
def execPowerCapInterval (m : Telemetry) (s : State) : Out :=
  .next (if s.die.d48 then capInterval (advance s (s.pwr.capAt + 2 ^ 16)) m else s)

/-- PCAP_N set, and the level with it. -/
def setPcap (s : State) (on : Bool) : State :=
  let s := settleThrottle s
  setCapLevel { s with pins := { s.pins with pcap := on } }

/-- PCAP_ASSERT (R480). -/
def execPcapAssert (s : State) : Out := .next (setPcap s true)

/-- PCAP_DEASSERT (R480). -/
def execPcapDeassert (s : State) : Out := .next (setPcap s false)

/-- The static address of the I3C target (17 R500). -/
def i3cAddress (s : State) : Nat := 0x30 + bits s.pins.strap.toNat 1 0

/-- MCTP_POWER_CAP (R481): the nearer limit outside 4,000 to 12,500 W. DESIGN CHOICE (log 99): the I3C target answers at
its static address. -/
def execMctpPowerCap (m : MctpCap) (s : State) : Out :=
  .next (if m.addr = i3cAddress s then
      { s with pwr := { s.pwr with cap := clampTo 4000 12500 m.watts } }
    else s)

/-! ### Voltage -/

/-- The stile adjusts the heath's voltage (R476, R477). -/
def avsRuns (s : State) (h : Nat) : Bool := decide (h < 48) && s.pwr.avsEn && railsAnswer s h

/-- HTH_DROOP.COUNT has risen by more than 64 within 2^20 ticks. -/
def droopsRise (s : State) (x : Heath) : Bool :=
  decide (64 < (x.droops.filter fun t => decide (now s ≤ t + 2 ^ 20)).length)

/-- AVS_VID_RAISE (R476): the droops that raised the VID count no more. -/
def execAvsVidRaise (h : Nat) (s : State) : Out :=
  .next (if avsRuns s h ∧ droopsRise s (heathAt s h) then
      updHeath s h fun x =>
        { setRails x (clampVid (x.railVid + 2)) (clampVid (x.sramVid + 2)) with droops := [] }
    else s)

/-- AVS_VID_LOWER (R476): at most once in 2^24 ticks, and never below the VID that the heath is held at. -/
def execAvsVidLower (h : Nat) (s : State) : Out :=
  .next (if avsRuns s h ∧ coreVid s h (heathAt s h) < (heathAt s h).railVid then
      let s := advance s ((heathAt s h).lowerAt + 2 ^ 24)
      updHeath s h fun x =>
        { setRails x (x.railVid - 1) (max (x.sramVid - 1) (sramTarget s h x)) with lowerAt := now s }
    else s)

/-- AVS_FAULT (R477): the rail keeps its voltage, and the heath is held at level 4 or higher. -/
def execAvsFault (h : Nat) (s : State) : Out :=
  .next (if h < 48 then
      updHeath (settleThrottle s) h fun x => { x with avsFault := true, avsHeld := true }
    else s)

end Sys2Proof.Machine
end

