-- ==== Sys2Proof/Machine/ResetOps.lean ====
section
/-! DEFINITION. Cold and warm reset: what each keeps (15 R483, R484; 16 R495, R496; 09 R280, R300; 01 R28, R31). -/

namespace Sys2Proof.Machine

open Sys2Proof

/-! ### Cold reset -/

/-- The heaths after a cold reset: the fuse maps are read again. -/
def coldHeaths (s : State) : FMap Heath :=
  (List.range 48).foldl (fun m h => put {} m h { fuse := look 0 s.lcf.maps h }) []

/-- What `PWR_RESET_CAUSE` holds after a cold reset. -/
def coldCause (s : State) (d49Lost : Bool) : Nat :=
  if d49Lost then 0 else if s.guard.off then s.pwr.cause else 1

/-- The fuse settings. -/
def keepFuses (l : Lcf) : Lcf :=
  { state := l.state, left := l.left, rollback := l.rollback, rollLeft := l.rollLeft, revoked := l.revoked
    revLeft := l.revLeft, commits := l.commits, eligible := l.eligible, eligLeft := l.eligLeft
    lockFuse := l.lockFuse, lockLeft := l.lockLeft, maps := l.maps, wrapped := l.wrapped }

/-- The pins at a cold reset: the power-goods and PCAP_N as they stand, PG_STL low where D49 lost its power, and the
clocks as R502 has them. -/
def coldPins (s : State) (strap : BitVec 4) (d49Lost : Bool) : Pins :=
  { s.pins with strap := strap, pgStl := s.pins.pgStl && !d49Lost, alert := false, refMain := true, refTick := true }

/-- A cold reset (R483). A fuse command cut short follows R460. Host memory is not the device's to reset, nor is the
chain in tray flash (14 R452). -/
def coldReset (s : State) (strap : BitVec 4) (d49Lost : Bool) : State :=
  let s := endFuse { s with free := s.free + 1 } (Config.fuseTakes s.free)
  setCapLevel { State.reset with
    pending := s.pending, free := s.free + 1, readData := s.readData, host := s.host
    die := { fusedGrade := s.die.fusedGrade, downbinLeft := s.die.downbinLeft
             d49 := (coldPins s strap d49Lost).pgStl }
    heaths := coldHeaths s
    lcf := keepFuses s.lcf
    stl := { chain := s.stl.chain, nonce := Config.debugNonce s.free }
    tick := { spread := strap.getLsbD 2 }
    pwr := { cause := coldCause s d49Lost }
    pins := coldPins s strap d49Lost }

/-! ### Warm reset -/

/-- A heath after a warm reset: its registers at their reset values (16 R496), what the stile holds of its rails, and the
mark of a loss, which lasts until a cold reset (R31). -/
def warmHeath (x : Heath) : Heath :=
  { fuse := x.fuse, mirror := x.mirror, runtime := x.mirror, railVid := x.railVid, sramVid := x.sramVid
    avsHeld := x.avsHeld, lowerAt := x.lowerAt, lossLatch := x.lossLatch }

/-- RESIDENT slots, and only they, stay. -/
def keptSlots (m : FMap Slot) : FMap Slot := m.filter fun p => p.2.state == .resident

/-- The regions that stay: those of RESIDENT slots. -/
def keptRegions (s : State) : FMap Region :=
  s.memory.regions.filter fun p =>
    p.2.valid && p.2.kind == 0 && (slotAt s p.2.slot).state == .resident

/-- DDR with the regions of emptied model slots and the adapter slots zeroed. -/
def warmDdr (s : State) : Mem :=
  (s.memory.regions.filter fun p => p.2.valid &&
      (p.2.kind == 2 || (p.2.kind == 0 && (slotAt s p.2.slot).state != .resident &&
        (slotAt s p.2.slot).state != .empty))).foldl
    (fun m p => memZero m p.2.lo (p.2.hi + 1 - p.2.lo)) s.memory.ddr

/-- Slots that are neither EMPTY nor RESIDENT, or adapters that the adapter table digest counts, go. -/
def emptiesMeasured (s : State) : Bool :=
  (s.load.slots.any fun p => p.2.state != .resident && p.2.state != .empty) ||
  s.load.adapters.any fun p => p.2.state == .live || p.2.state == .retiring

/-- A zeroing of DDR is given up; every other operation of the guard goes on (R444, R485). -/
def warmGuard (s : State) : State :=
  if s.guard.running = some .zeroizeDdr then
    startNext (guardDone { guardAbandon s .zeroizeDdr with guard := { s.guard with running := none } }
      .zeroizeDdr stFnDisabled)
  else s

/-- A warm reset changes what measurements 6 to 16 show (14 R454): a program, a slot that is not RESIDENT, an adapter or
a plan goes. -/
def warmMeasured (s : State) : Bool :=
  progLive s || s.fab.part != .unassigned || emptiesMeasured s

/-- PWR after a warm reset (16 R496): the cause that it records, and a bring-up that runs again while the firmware
stands. -/
def warmPwr (s : State) : Pwr :=
  { cause := 2, boot := min s.pwr.boot 1, fwAt := s.pwr.fwAt, upAt := s.pwr.upAt
    throttleAt := now s, capAt := now s }

/-- A warm reset (R484, R496): the decisions of a boundary that has not committed are void, as at a stop (06 R206). -/
def warmReset (s : State) : State :=
  let s := relock (voidBoundary s)
  let t : State := {
    pending := s.pending, free := s.free, readData := s.readData, host := s.host
    die := { fusedGrade := s.die.fusedGrade, downbinLeft := s.die.downbinLeft
             rimLost := s.die.rimLost, d48 := s.die.d48, d49 := s.die.d49 }
    heaths := (List.range 48).foldl (fun m h => put {} m h (warmHeath (heathAt s h))) []
    memory := { regions := keptRegions s
                chans := (List.range 80).foldl (fun m c => upd {} m c fun x => { x with trained := false })
                  s.memory.chans
                spares := s.memory.spares, ddr := warmDdr s, zeroed := s.memory.zeroed
                halvedAt := s.memory.halvedAt }
    tick := { gtc := s.tick.gtc, gtcHi := s.tick.gtcHi, running := s.tick.running, spread := s.tick.spread }
    load := { slots := keptSlots s.load.slots }
    lcf := s.lcf
    stl := { s.stl with lock := false }
    guard := s.guard
    pwr := warmPwr s
    pins := { s.pins with alert := false } }
  warmGuard (setCapLevel (if warmMeasured s then bumpMeas t else t))

end Sys2Proof.Machine
end

