-- ==== Sys2Proof/Machine/DescOps.lean ====
section
/-! DEFINITION. Submission descriptors: their fields and common checks, the answer to each, and argument blocks (13 R413, R414 to R426, R442; 12 R400). -/

namespace Sys2Proof.Machine

open Sys2Proof

/-! ### Fields (R421) -/

/-- Word `i` of a descriptor. -/
def descWord (d : BitVec 512) (i : Nat) : Nat := (d.toNat >>> (64 * i)) % 2 ^ 64

def descVersion (d : BitVec 512) : Nat := bits (descWord d 0) 7 0
def descType (d : BitVec 512) : Nat := bits (descWord d 0) 15 8
def descCring (d : BitVec 512) : Nat := bits (descWord d 0) 21 16
def descTag (d : BitVec 512) : DWord := dw (descWord d 1)

/-- Descriptor types (table of R413). -/
def dtSubmit : Nat := 0x01
def dtCancel : Nat := 0x02
def dtLoadModel : Nat := 0x03
def dtSwapModel : Nat := 0x04
def dtLoadAdapter : Nat := 0x05
def dtRetire : Nat := 0x06
def dtBudget : Nat := 0x07
def dtLaunch : Nat := 0x08
def dtAbort : Nat := 0x09
def dtQuery : Nat := 0x0A

def typeKnown (t : Nat) : Bool := decide (1 ≤ t ∧ t ≤ 0x0A)

/-- The bits `[hi:lo]` set. -/
def span (hi lo : Nat) : Nat := (2 ^ (hi + 1 - lo) - 1) * 2 ^ lo

/-- All bits of a word. -/
def wordBits : Nat := 2 ^ 64 - 1

/-- The bits that a type defines in words 0 and 2 to 7; the others are reserved. -/
def descMasks (t : Nat) : List Nat :=
  match t with
  | 0x01 => [span 46 32, wordBits, wordBits, wordBits, wordBits, 0, 0]
  | 0x02 => [span 47 32, wordBits, 0, 0, 0, 0, 0]
  | 0x03 => [0, 0, 0, 0, wordBits, 0, 0]
  | 0x04 => [0, 0, 0, 0, wordBits, 0, 0]
  | 0x05 => [0, 0, 0, 0, wordBits, 0, 0]
  | 0x06 => [span 34 32 + span 55 36, span 31 0, 0, 0, 0, 0, 0]
  | 0x07 => [span 45 32 + span 55 48, span 15 0 + span 63 32, span 31 0, 0, 0, 0, 0]
  | 0x08 => [0, wordBits, span 47 0, wordBits, wordBits, 0, 0]
  | 0x0A => [span 34 32 + span 63 40, wordBits, 0, 0, 0, 0, 0]
  | _ => [0, 0, 0, 0, 0, 0, 0]

/-- Every reserved bit is zero. -/
def reservedZero (t : Nat) (d : BitVec 512) : Bool :=
  let m := descMasks t
  descWord d 0 &&& (wordBits - span 21 0 - nth 0 m 0) == 0 &&
  (List.range 6).all fun i => descWord d (i + 2) &&& (wordBits - nth 0 m (i + 1)) == 0

/-- The fields that have a range are in it. -/
def rangesOk (t : Nat) (d : BitVec 512) : Bool :=
  match t with
  | 0x03 => descWord d 5 != 0
  | 0x04 => descWord d 5 != 0
  | 0x05 => descWord d 5 != 0
  | 0x06 => bits (descWord d 2) 31 0 != 0
  | 0x07 => decide (bits (descWord d 0) 55 48 < 64)
  | 0x0A =>
    let i := bits (descWord d 0) 63 40
    match bits (descWord d 0) 34 32 with
    | 0 => decide (i < 65536)
    | 1 => decide (i < 4096)
    | 2 => decide (i < 8)
    | 3 => decide (i < 1024)
    | _ => false
  | _ => true

/-- The function may submit the type (R413). -/
def granted (s : State) (f t : Nat) : Bool :=
  f == 0 || t == dtSubmit || t == dtCancel || t == dtQuery ||
  ((t == dtLoadAdapter || t == dtRetire) && (fnAt s f).adapter)

/-- The completion ring exists. -/
def cringOk (s : State) (f c : Nat) : Bool := (ringAt s f (64 + c)).valid

/-- The status of the ERROR of a descriptor that fails the common checks. -/
def descRefusal (s : State) (f : Nat) (d : BitVec 512) : Option Nat :=
  if descVersion d ≠ 1 then some stVersion
  else
    let t := descType d
    if typeKnown t && granted s f t && reservedZero t d && cringOk s f (descCring d) && rangesOk t d then none
    else some stMalformed

/-! ### Reading a descriptor (R414, R416, R419) -/

/-- A submission ring has descriptors waiting. -/
def ringWaits (x : Ring) : Bool := x.valid && !x.stopped && x.consumed % 2 ^ 32 != x.tail % 2 ^ 32

/-- The pairs (function, ring) with descriptors waiting, as 64 × function + ring. -/
def waitingPairs (s : State) : List Nat :=
  (s.hif.fns.filter fun p => decide (p.1 < 64) && p.2.state == 1).flatMap fun p =>
    (p.2.rings.filter fun x => decide (x.1 < 64) && ringWaits x.2).map fun x => 64 * p.1 + x.1

/-- The least of the numbers. -/
def leastOf : List Nat → Option Nat
  | [] => none
  | x :: xs => some (xs.foldl min x)

/-- The pair that the device reads next (R420): that of the present turn until it has read 8, then the next one
in the round (log 88). -/
def nextPair (s : State) : Option Nat :=
  let l := waitingPairs s
  if l.contains s.hif.served && decide (s.hif.turn < 8) then some s.hif.served
  else match leastOf (l.filter fun k => decide (s.hif.served < k)) with
    | some k => some k
    | none => leastOf l

/-- The ring has a descriptor waiting, and its turn has come. -/
def canRead (s : State) (f r : Nat) : Bool :=
  s.die.d48 && decide (f < 64 ∧ r < 64) && nextPair s == some (64 * f + r)

/-- One descriptor of the turn is read. -/
def noteTurn (h : Hif) (k : Nat) : Hif :=
  { h with served := k, turn := if h.served = k ∧ h.turn < 8 then h.turn + 1 else 1 }

/-- One descriptor more is read; CONSUMED is written back when the ring is empty, else after every 8. -/
def consume (s : State) (f r : Nat) : State :=
  let s := { s with hif := noteTurn s.hif (64 * f + r) }
  let x := ringAt s f r
  let c := (x.consumed + 1) % 2 ^ 32
  let back := decide (c = x.tail % 2 ^ 32 ∨ x.turn + 1 = 8)
  let s := setRing s f r { x with consumed := c, turn := if back then 0 else x.turn + 1 }
  if back then hostWrite s ((fnAt s f).ctx * 64 + 32 * r + 16) (leBytes 4 c) else s

/-- Who is answered. -/
def askerFor (s : State) (f r : Nat) (d : BitVec 512) : Asker :=
  { fn := f, gen := (fnAt s f).gen, sring := r, cring := descCring d, tag := descTag d, op := descType d }

/-- PROGRAM_DONE of a LAUNCH_PROGRAM that is refused (R429). -/
def launchRefused (s : State) (w : Asker) (status : Nat) : State :=
  answer s w (compWords (compWord0 ctProgDone status w.sring 0 w.op) w.tag [])

/-- A status as the one answer of a descriptor. -/
def refuseDesc (s : State) (w : Asker) (status : Nat) : State :=
  if w.op = dtLaunch then launchRefused s w status else answerStatus s w status

/-- A descriptor of type `t` taken from ring `r` of function `f`: nothing where none waits or the one that
waits is of another type; an ERROR where it fails the common checks; FENCED on a fenced device (R400);
else what it does. -/
def takeDesc (s : State) (f r : Nat) (d : BitVec 512) (t : Nat) (run : State → Asker → State) : State :=
  if canRead s f r && (descType d == t || !typeKnown (descType d)) then
    let i := (ringAt s f r).consumed
    let s := consume s f r
    match descRefusal s f d with
    | some e =>
      postError s f (if cringOk s f (descCring d) then some (descCring d) else none) e r (descType d)
        (descTag d) r i (dw (descWord d 0))
    | none =>
      let w := askerFor s f r d
      if s.fab.part = .fenced then refuseDesc s w stFenced else run s w
  else s

/-! ### Argument blocks (R422, R424, R426, R442) -/

/-- The status that a faulted bulk read gives its descriptor. -/
def readRefusal (x : ReadStatus) : Option Nat :=
  match x with
  | .ok => none
  | .poison => some stPoisoned
  | .failed => some stMalformed

/-- Word `i` of an argument block; an absent block is all zeros but for its version. -/
def argWord (a : Fetch) (i : Nat) : Nat := (nth 0 a.words i).toNat

/-- The refusal of an argument block by its read or its version, where there is a block. -/
def argRefusal (addr : Nat) (a : Fetch) : Option Nat :=
  if addr = 0 then none
  else match readRefusal a.status with
    | some e => some e
    | none => if bits (argWord a 0) 7 0 = 1 then none else some stVersion

/-- The block, or one of zeros where the descriptor names none. -/
def argBlock (addr : Nat) (a : Fetch) : Fetch := if addr = 0 then {} else a

/-- The 32-bit tokens of a read, `n` of them. -/
def fetchTokens (a : Fetch) (n : Nat) : List Word :=
  ((a.words.flatMap fun (w : DWord) => [w.setWidth 32, (w >>> 32).setWidth 32]) ++ List.replicate n 0).take n

end Sys2Proof.Machine
end

