-- ==== Sys2Proof/Machine/ServeOps.lean ====
section
/-! DEFINITION. Requests taken in: the checks of a submission, the entry, its token store, and the prefix cache (08 R238 to R241, R254, R259 to R263; 09 R298, R308; 13 R422, R423; 10 R321). -/

namespace Sys2Proof.Machine

open Sys2Proof

/-! ### Bound slots and replica sets (R227, R306, R308) -/

/-- The loaded step program binds the model slot. -/
def slotBound (s : State) (n : Nat) : Bool := s.prog.binds.any fun r => r.kind == 0 && r.slot == n

/-- Devices of a replica set with the SPLIT code. -/
def splitCount (c : Nat) : Nat := 2 ^ (c % 4)

/-- The member number of this device in a replica set of `n`. -/
def replicaIndex (s : State) (n : Nat) : Nat := devX s.fab.id % n

/-- The slot is split and this device is not its member 0. -/
def servesElsewhere (s : State) (slot : Nat) : Bool :=
  let n := splitCount (slotAt s slot).split
  decide (1 < n) && replicaIndex s n != 0

/-- This device serves no slot of the loaded program itself: another member admits for it. -/
def follows (s : State) : Bool :=
  s.prog.binds.any fun r => r.kind == 0 && servesElsewhere s r.slot

/-! ### The words of the tables (R235) -/

/-- A word of a request entry, or of a tenant entry, is uncorrectable. -/
def reqBad (s : State) (i : Nat) : Bool :=
  (List.range 32).any fun w => (eccRead (look 0 s.srv.reqFlips (32 * i + w))).1 == .bad
def tenantBad (s : State) (t : Nat) : Bool :=
  (List.range 8).any fun w => (eccRead (look 0 s.srv.tenFlips (8 * t + w))).1 == .bad

/-- Entries of the tables read: an uncorrectable word stops the partition (R235). -/
def readTables (s : State) (reqs tenants : List Nat) : State :=
  if reqs.any (reqBad s) || tenants.any (tenantBad s) then stopOwn s fcUncorr caCore else s

/-- The words of a request entry, and the first four of a tenant's, written anew. -/
def freshReq (s : State) (i : Nat) : State :=
  { s with srv := { s.srv with reqFlips := dropRange s.srv.reqFlips (32 * i) (32 * i + 32) } }
def freshTenant (s : State) (t : Nat) : State :=
  { s with srv := { s.srv with tenFlips := dropRange s.srv.tenFlips (8 * t) (8 * t + 4) } }

/-! ### SUBMIT_REQUEST (R239, R240, R422) -/

def subTenant (d : BitVec 512) : Nat := bits (descWord d 0) 43 32
def subSlot (d : BitVec 512) : Nat := bits (descWord d 0) 46 44
def subPrompt (d : BitVec 512) : Nat := bits (descWord d 3) 31 0
def subMaxNew (d : BitVec 512) : Nat := bits (descWord d 3) 63 32
def subArgs (d : BitVec 512) : Nat := descWord d 5

/-- The lowest FREE entry. -/
def freeReq (s : State) : Option Nat :=
  let i := firstGap 0 (s.srv.books.reqs.map (·.1))
  if i < 65536 then some i else none

/-- The adapter slot that a submission binds: LIVE, of the ID and the model slot, of the version named or,
for version 0, the newest. -/
def findAdapter (s : State) (slot id version : Nat) : Option Nat :=
  let live := s.load.adapters.filter fun p => p.2.state == .live && p.2.slot == slot && p.2.id == id
  if version = 0 then
    (live.foldl (fun (b : Option (Nat × Nat)) p =>
      match b with
      | some (_, v) => if v < p.2.version then some (p.1, p.2.version) else b
      | none => some (p.1, p.2.version)) none).map (·.1)
  else (live.find? fun p => p.2.version == version).map (·.1)

/-- The conditions of R239 beyond a FREE entry, with the ranges of the argument block. -/
def submitOk (s : State) (f : Nat) (d : BitVec 512) (a : Fetch) : Bool :=
  let t := tenantAt s (subTenant d)
  progLive s && s.prog.step && (f == 0 || (t.valid && t.fn == f)) && decide (1 ≤ subPrompt d) &&
  decide (subPrompt d + subMaxNew d ≤ s.prog.table.contextMax) &&
  (!bit (argWord a 0) 8 || s.prog.explain) && slotBound s (subSlot d) &&
  decide (bits (argWord a 0) 14 12 ≤ 4 ∧ bits (argWord a 0) 18 15 ≤ 8)

/-- The refusal of a resumption (R423). -/
def resumeRefusal (d : BitVec 512) (a resume : Fetch) : Option Nat :=
  if !bit (argWord a 0) 11 then none
  else if subMaxNew d ≤ bits (argWord a 16) 31 0 then some stMalformed
  else readRefusal resume.status

/-- The adapter named is not resident. -/
def adapterGone (s : State) (d : BitVec 512) (a : Fetch) : Bool :=
  bit (argWord a 0) 10 &&
  (findAdapter s (subSlot d) (bits (argWord a 1) 19 0) (bits (argWord a 1) 63 32)).isNone

/-- The status with which a submission is refused. -/
def submitRefusal (s : State) (f : Nat) (d : BitVec 512) (args prompt resume : Fetch) : Option Nat :=
  if !s.srv.enable || servesElsewhere s (subSlot d) then some stFnDisabled
  else match argRefusal (subArgs d) args with
    | some e => some e
    | none =>
      let a := argBlock (subArgs d) args
      if (freeReq s).isNone then some stNoRes
      else if !submitOk s f d a then some stMalformed
      else match resumeRefusal d a resume with
        | some e => some e
        | none =>
          if prompt.status ≠ .ok then readRefusal prompt.status
          else if adapterGone s d a then some stAdapter
          else none

/-- Stop tokens of the block; 0xFFFF_FFFF is unused. -/
def argStops (addr : Nat) (a : Fetch) : List Word :=
  if addr = 0 then [] else
    ([bits (argWord a 4) 31 0, bits (argWord a 4) 63 32, bits (argWord a 5) 31 0, bits (argWord a 5) 63 32].map
      (BitVec.ofNat 32)).filter (· != 0xFFFFFFFF)

def argSwitches (a : Fetch) : List Switch :=
  (List.range (bits (argWord a 0) 14 12)).map fun i =>
    let w := argWord a (11 + i)
    { count := bits w 31 0, policy := bits w 32 32, slot := bits w 35 33 }

def argOutputs (a : Fetch) : List Nat :=
  (List.range (bits (argWord a 0) 18 15)).map fun i =>
    bits (argWord a (6 + i / 2)) (if i % 2 = 0 then 31 else 63) (if i % 2 = 0 then 0 else 32)

/-- The words without the zeros at their end. -/
def trimWords (l : List DWord) : List DWord := (l.reverse.dropWhile (· == 0)).reverse

/-- The OUTPUT_STATE after one more token, and after several (R321). -/
def stepOutput (o : Digest) (t : Word) : Digest := sha256 (digestBytes o ++ leBytes 4 t.toNat)

/-- The request entry of an accepted submission. -/
def newReq (s : State) (w : Asker) (d : BitVec 512) (a prompt resume : Fetch) : Req :=
  let resumed := bit (argWord a 0) 11
  let out := if resumed then fetchTokens resume (bits (argWord a 16) 31 0) else []
  let swaps := if resumed then trimWords ((List.range 4).map fun i => dw (argWord a (17 + i))) else []
  let ad := if bit (argWord a 0) 10 then
      findAdapter s (subSlot d) (bits (argWord a 1) 19 0) (bits (argWord a 1) 63 32)
    else none
  { state := .intake, fn := w.fn, gen := w.gen, sring := w.sring, cring := w.cring, tenant := subTenant d
    slot := subSlot d, adapter := ad, explain := bit (argWord a 0) 8, expire := bit (argWord a 0) 9
    reprefill := resumed, tag := w.tag, seed := dw (descWord d 4)
    adapterVer := match ad with
      | some n => (adapterAt s n).version
      | none => 0
    prompt := fetchTokens prompt (subPrompt d), output := out, maxNew := subMaxNew d
    arrival := now s, deadline := if argWord a 2 = 0 then 0 else now s + argWord a 2
    ttft := bits (argWord a 3) 31 0, tbt := bits (argWord a 3) 63 32, stops := argStops (subArgs d) a
    outState := out.foldl stepOutput 0, swapCount := swaps.length, swaps := swaps
    switches := argSwitches a, outputs := argOutputs a, scoresAt := argWord a 10 }

/-- A submission: accepted with an EVENT that carries the request index, or refused. -/
def submit (s : State) (w : Asker) (d : BitVec 512) (args prompt resume : Fetch) : State :=
  let s := readTables s (freeReq s).toList [subTenant d]
  match submitRefusal s w.fn d args prompt resume with
  | some e => answerStatus s w e
  | none =>
    match freeReq s with
    | some i =>
      answerEvent (freshReq (putReq s i (newReq s w d (argBlock (subArgs d) args) prompt resume)) i) w stOK 0 0 0 i
    | none => answerStatus s w stNoRes

/-! ### Token stores (R238, R241, R255) -/

/-- The page table and the tokens of a request in its store. -/
def writeStore (s : State) (i : Nat) : State :=
  let r := reqAt s i
  let s := ddrWrite s r.store (r.pages.flatMap fun p => leBytes 4 p)
  ddrWrite s (tokenAddr s r 0) (tokenBytes (r.prompt ++ r.output))

/-- The store taken and filled, where the request has none and the pool has room. -/
def ensureStore (s : State) (i : Nat) : State :=
  if (reqAt s i).storeLen ≠ 0 then s
  else match takeStore s i with
    | some s => writeStore s i
    | none => s

/-! ### The prefix cache (R260 to R263) -/

/-- The first 128 bits of a digest, as a little-endian number. -/
def trunc128 (d : Digest) : BitVec 128 := BitVec.ofNat 128 (leNat ((digestBytes d).take 16))

/-- The digest of a request's adapter; zero where none is bound. -/
def reqAdapterDigest (s : State) (r : Req) : Digest :=
  match r.adapter with
  | some a => (adapterAt s a).digest
  | none => 0

/-- The key before block 0. -/
def chainStart (s : State) (r : Req) : BitVec 128 :=
  trunc128 (sha256 (digestBytes (slotAt s r.slot).root ++ digestBytes (reqAdapterDigest s r) ++
    leBytes 4 (pageTokens s)))

/-- The keys of blocks, each from the key before it. -/
def chainKeys (h : BitVec 128) : List (List Word) → List (BitVec 128)
  | [] => []
  | b :: bs =>
    let k := trunc128 (sha256 (leBytes 16 h.toNat ++ tokenBytes b))
    k :: chainKeys k bs

/-- The full blocks of the prompt. -/
def promptBlocks (s : State) (r : Req) : List (List Word) :=
  chunks (pageTokens s) (r.prompt.length / pageTokens s) r.prompt

/-- The key of the root of a request's tree. -/
def treeRoot (s : State) (r : Req) : Digest × Digest := ((slotAt s r.slot).root, reqAdapterDigest s r)

/-- The paths of blocks: the tokens from position 0 to the end of each. -/
def blockPaths (done : List Word) : List (List Word) → List (List Word)
  | [] => []
  | b :: bs => (done ++ b) :: blockPaths (done ++ b) bs

/-- What identifies each full block of the prompt in the index. -/
def blockEntries (s : State) (r : Req) : List PfxEntry :=
  if s.srv.pfxMode = 1 then (chainKeys (chainStart s r) (promptBlocks s r)).map fun k => { key := k }
  else if s.srv.pfxMode = 2 then
    (blockPaths [] (promptBlocks s r)).map fun p => { path := p, tree := treeRoot s r }
  else []

/-- Two entries name the same block. -/
def sameBlock (a b : PfxEntry) : Bool := a.key == b.key && a.path == b.path && a.tree == b.tree

/-- The pages of the blocks found, up to the first miss. -/
def matchBlocks (pfx : List PfxEntry) : List PfxEntry → List Nat
  | [] => []
  | e :: es => match pfx.find? (sameBlock e) with
    | some x => x.page :: matchBlocks pfx es
    | none => []

/-- Tokens reused: whole chunks matched, and never the last position's page (R260). -/
def reuseTokens (s : State) (r : Req) (found : Nat) : Nat :=
  let c := max 1 s.prog.table.chunk
  min (found * pageTokens s / c * c) ((r.prompt.length - 1) / c * c)

/-- The prefix lookup: pages shared, and their last use noted. -/
def lookupPrefix (s : State) (i : Nat) : State :=
  let r := reqAt s i
  let es := blockEntries s r
  let found := matchBlocks s.srv.books.pfx es
  let n := reuseTokens s r found.length
  let pages := found.take (n / pageTokens s)
  let used := es.take pages.length
  let touch := fun (e : PfxEntry) =>
    if used.any (sameBlock e) then { e with lastUse := max e.lastUse s.srv.curStep } else e
  let s := updBooks s fun b => pages.foldl holdPage { b with pfx := b.pfx.map touch }
  let s := updReq s i fun r => { r with pages := pages, hit := n, prefilled := n }
  { s with srv := { s.srv with hits := satTo 32 (s.srv.hits + pages.length) } }

/-- INTAKE ends (R241). -/
def endIntake (s : State) (i : Nat) : State :=
  let s := ensureStore (readTables s [i] []) i
  let s := lookupPrefix s i
  let s := if (reqAt s i).storeLen = 0 then s else writeStore s i
  updReq s i fun r =>
    let r := { r with promptDig := sha256 (tokenBytes r.prompt) }
    if r.state = .held then { r with resume := .queued } else { r with state := .queued }

/-- The set of an entry in HASH mode. -/
def hashSet (e : PfxEntry) : Nat := e.key.toNat % 2 ^ 20

/-- A request outside FREE holds the page. -/
def pageHeld (b : Books) (p : Nat) : Bool := b.reqs.any fun r => r.2.pages.contains p

/-- The entry of oldest last use that no request holds: the one replaced. -/
def oldestFree (b : Books) (l : List PfxEntry) : Option PfxEntry :=
  (l.filter fun e => !pageHeld b e.page).foldl (fun (m : Option PfxEntry) e =>
    match m with
    | some x => if e.lastUse < x.lastUse ∨ e.lastUse = x.lastUse ∧ e.way < x.way then some e else m
    | none => some e) none

/-- An entry added to the index, its page held. -/
def addEntry (b : Books) (e : PfxEntry) : Books := holdPage { b with pfx := b.pfx ++ [e] } e.page

/-- An entry removed from the index. -/
def dropEntry (b : Books) (x : PfxEntry) : Books :=
  dropPage { b with pfx := b.pfx.filter (! sameBlock x ·) } x.page

/-- A block that the index holds is used again: its last use never goes back. -/
def touchEntry (e x : PfxEntry) : PfxEntry :=
  if sameBlock x e then { x with lastUse := max x.lastUse e.lastUse } else x

/-- A block put into a way of its set (R261). -/
def enterHash (b : Books) (e : PfxEntry) : Books :=
  let set := b.pfx.filter fun x => hashSet x == hashSet e
  match least (fun w => !(set.any fun x => x.way == w)) 4 with
  | some w => addEntry b { e with way := w }
  | none => match oldestFree b set with
    | some x => addEntry (dropEntry b x) { e with way := x.way }
    | none => b

/-- Entry `y` of a tree lies below entry `x` (R262). -/
def below (x y : PfxEntry) : Bool :=
  y.tree == x.tree && decide (x.path.length < y.path.length) && y.path.take x.path.length == x.path

/-- A node's parent is in the tree: the root, or the node of the blocks before. -/
def parentIn (b : Books) (n : Nat) (e : PfxEntry) : Bool :=
  let p := e.path.take (e.path.length - n)
  p == [] || b.pfx.any fun x => x.tree == e.tree && x.path == p

/-- Leaves that may make room for a new node: none that it will stand under. -/
def leavesFor (b : Books) (e : PfxEntry) : List PfxEntry :=
  b.pfx.filter fun x => !(b.pfx.any (below x)) && !below x e

/-- A block put into the tree: its node is taken from the pool or, where that has no room, from the leaf of
oldest last use that no request holds (R237, R262). -/
def enterTree (s : State) (e : PfxEntry) : State :=
  let b := s.srv.books
  let a := fitRun 64 (nodeBytes s) (poolBase s) (poolRuns s)
  if !parentIn b (pageTokens s) e then s
  else if a + nodeBytes s ≤ poolEnd s then updBooks s fun b => addEntry b { e with at_ := a }
  else match oldestFree b (leavesFor b e) with
    | some x => updBooks s fun b => addEntry (dropEntry b x) { e with at_ := x.at_ }
    | none => s

/-- A block put into the index. -/
def enterBlock (s : State) (e : PfxEntry) : State :=
  if s.srv.books.pfx.any (sameBlock e) then updBooks s fun b => { b with pfx := b.pfx.map (touchEntry e) }
  else if s.srv.pfxMode = 1 then updBooks s fun b => enterHash b e
  else enterTree s e

/-- Block `k` of request `i`, as its chunk commits with step `n`. -/
def commitBlock (s : State) (n i k : Nat) : State :=
  let r := reqAt s i
  match (blockEntries s r)[k]?, r.pages[k]? with
  | some e, some p => enterBlock s { e with page := p, lastUse := n }
  | _, _ => s

/-- The index emptied: pages that only it held go fallow. -/
def emptyPrefix (b : Books) : Books :=
  b.pfx.foldl (fun b e => dropPage b e.page) { b with pfx := [] }

/-! ### PAGE_ZEROING_COMPLETE (R257) -/

/-- A fallow page's last zeroing write has completed: the page is free. -/
def freePage (s : State) (p : Nat) : State :=
  let s := setDdr s (memZero s.memory.ddr (pageAddr s p) (pageBytes s))
  updBooks s fun b => { b with fallow := b.fallow.filter (· != p), taken := b.taken.filter (· != p) }

/-- A freed token store block is zeroed: it is free. -/
def freeBlock (s : State) (a : Nat) : State :=
  let s := setDdr s (memZero s.memory.ddr a blockBytes)
  { s with srv := { s.srv with dirty := s.srv.dirty.filter (· != a) } }

/-- Bytes of a unit. -/
def unitBytes (s : State) : FallowUnit → Nat
  | .page _ => pageBytes s
  | .block _ => blockBytes

/-- The unit is the next of its kind: pages go in ascending order, and blocks in the same way. -/
def nextUnit (s : State) : FallowUnit → Bool
  | .page p => nextFallow s == some p
  | .block a => s.srv.dirty.head? == some a

/-- A step program's steps bound what the scrubber writes. -/
def scrubBounded (s : State) : Bool := s.prog.step && s.tick.launched

/-- The step's SCRUB_BYTES allow `n` bytes more. -/
def scrubAllows (s : State) (n : Nat) : Bool := !scrubBounded s || decide (n ≤ s.srv.scrubLeft)

/-- `n` bytes of the step's SCRUB_BYTES used. -/
def scrubUse (s : State) (n : Nat) : State :=
  if scrubBounded s then { s with srv := { s.srv with scrubLeft := s.srv.scrubLeft - n } } else s

/-- A unit zeroed, where it is the next one and the step's SCRUB_BYTES allow it (R257). Adapter slots that are
zeroed go ahead of it (R300). -/
def zeroUnit (s : State) (u : FallowUnit) : State :=
  let waits := scrubBounded s && s.load.adapters.any fun p => p.2.state == .zeroing
  if !nextUnit s u || waits || !scrubAllows s (unitBytes s u) then s
  else
    let s := scrubUse s (unitBytes s u)
    match u with
    | .page p => freePage s p
    | .block a => freeBlock s a

end Sys2Proof.Machine
end

