-- ==== Sys2Proof/Machine/LoadOps.lean ====
section
/-! DEFINITION. The load path: load sets, the checks of loads, leaves, roots and verdicts, failures, model slots and adapter slots (09 R279 to R308; 13 R424). -/

namespace Sys2Proof.Machine

open Sys2Proof

/-! ### Leaves (R281) -/

def leafSize : Nat := 2 ^ 20
def nearLeaves (o : LoadOp) : Nat := (o.near + leafSize - 1) / leafSize
def leafCount (o : LoadOp) : Nat := (o.near + o.far + leafSize - 1) / leafSize

/-- Bytes of leaf `i`. -/
def leafBytes (o : LoadOp) (i : Nat) : Nat := min leafSize (o.near + o.far - i * leafSize)

/-- The load reads a range for each member, and exchanges hashes (R306). -/
def isRange (o : LoadOp) : Bool := o.split != 0

/-- The leaf is hashed on this device. -/
def hashesLeaf (o : LoadOp) (i : Nat) : Bool :=
  !isRange o || decide (nearLeaves o ≤ i) || decide (o.first ≤ i ∧ i < o.first + o.leaves)

/-! ### Operations -/

/-- Leaves of the running operation done, in percent. -/
def loadPercent (l : Load) (o : LoadOp) : Nat := l.hashes.length * 100 / max 1 (leafCount o)

/-! ### The end of an operation (R283, R287, R289, R293, R294) -/

/-- Every verdict matched. -/
def finishLoad (s : State) (o : LoadOp) : State :=
  let s := clearReqs s
  if o.kind = 1 then
    let s := setSlot s o.slot { slotAt s o.slot with state := .resident, root := s.load.computed, progress := 100 }
    bumpMeas (setLoad (answerLoad s o stOK) { clearOp s.load with cur := none })
  else if o.kind = 2 then setLoad s { clearOp s.load with cur := none, matchedAt := some (now s) }
  else
    let s := setAdapter s o.ad { adapterAt s o.ad with verified := true }
    setLoad (answerLoad s o stOK) { clearOp s.load with cur := none }

/-- The verdicts held: one failure ends the load, and all matches complete it. -/
def settleLoadVerdicts (s : State) (o : LoadOp) : State :=
  match s.load.verdicts.find? fun v => v.2 != stOK with
  | some v => failLoad s o v.2
  | none =>
    let me := ownMember s o
    let heard := fun m => m == me || s.load.verdicts.any fun v => v.1 == m
    if s.load.own = some stOK ∧ (List.range (max 1 o.set)).all heard then finishLoad s o else s

/-- The root formed and compared once every leaf hash is held. -/
def formRoot (s : State) (o : LoadOp) : State :=
  let n := leafCount o
  if s.load.hashes.length < n ∨ s.load.own.isSome ∨ !s.load.started then s
  else
    let root := merkleRoot ((List.range n).map fun i => (look none s.load.hashes i).getD 0)
    let s := setLoad s { s.load with computed := root }
    if root = o.root then
      let s := setLoad s { s.load with own := some stOK }
      settleLoadVerdicts (sendSet s o { mtype := mtVerdict, a := stOK, digest := root }) o
    else failOwn s o stMalformed

/-! ### A leaf (R286, R287, R306) -/

/-- The leaf is of this member's own share or range. -/
def ownLeaf (s : State) (o : LoadOp) (i : Nat) : Bool :=
  if isRange o then decide (o.first ≤ i ∧ i < o.first + o.leaves) else i % max 1 o.set == ownMember s o

/-- Where a leaf of the own share or range lies in the host's memory (R286). -/
def shareAddr (o : LoadOp) (i : Nat) : Nat :=
  o.host + (if isRange o then i - o.first else i / max 1 o.set) * leafSize

/-- The bytes of a leaf of the own share, read over the host port; none where a word is uncorrectable. -/
def shareLeaf (s : State) (o : LoadOp) (i : Nat) : Option (List Byte) :=
  if badWords s.host (shareAddr o i) (leafBytes o i) = [] then
    some (memGet s.host (shareAddr o i) (leafBytes o i))
  else none

/-- The bytes of a far leaf in the host's memory; none where a word is uncorrectable. -/
def farLeaf (s : State) (o : LoadOp) (i : Nat) : Option (List Byte) :=
  let a := farHost s.memory (o.farAddr + (i - nearLeaves o) * leafSize)
  if badWords s.host a (leafBytes o i) = [] then some (memGet s.host a (leafBytes o i)) else none

/-- The links on which this member sends a near leaf on: its own share to its X and its Y peers, and what
came straight from an X peer (even leaves) or a Y peer (odd leaves) to the peers of the other axis. -/
def forwardLinks (s : State) (o : LoadOp) (i : Nat) : List Nat :=
  if isRange o ∨ o.set ≤ 1 then []
  else
    let id := s.fab.id
    let from_ := nth id (setMembers id o.set) (i % o.set)
    let xs := (List.range 8).filter (· != devX id) |>.map fun x => (x + 15 - devX id) % 8
    let ys := if o.set = 64 then (List.range 8).filter (· != devY id) |>.map fun y => 7 + (y + 15 - devY id) % 8
      else []
    if from_ = id then xs ++ ys
    else if i % 2 = 0 ∧ devY from_ = devY id then ys
    else if i % 2 = 1 ∧ devX from_ = devX id then xs
    else []

/-- Hashes of this member's range, sent once all of it is hashed (R306). -/
def sendHashes (s : State) (o : LoadOp) : State :=
  let mine := (List.range o.leaves).map fun i => look none s.load.hashes (o.first + i)
  if s.load.started ∧ isRange o ∧ !s.load.reported.contains (ownMember s o) ∧ mine.all (·.isSome) then
    let s := setLoad s { s.load with reported := insertNat (ownMember s o) s.load.reported }
    sendSet s o { mtype := mtLeafHashes, a := o.first, b := o.leaves
                  bytes := mine.flatMap fun h => digestBytes (h.getD 0) }
  else s

/-- PROGRESS of the slot that is loaded. -/
def noteProgress (s : State) (o : LoadOp) : State :=
  if o.kind = 3 then s
  else setSlot s o.slot { slotAt s o.slot with progress := loadPercent s.load o }

/-- In a replica set, every member's range is in and leaves are missing (R306). -/
def rangesShort (s : State) (o : LoadOp) : Bool :=
  isRange o && (List.range (max 1 o.set)).all (fun m => s.load.reported.contains m) &&
  (List.range (nearLeaves o)).any fun i => (look none s.load.hashes i).isNone

/-- What follows once another hash is held. -/
def settleHashes (s : State) (o : LoadOp) : State :=
  let s := sendHashes (noteProgress s o) o
  if rangesShort s o then failOwn s o stMalformed else formRoot s o

/-! ### Leaves sent on (R285, R287, R383) -/

/-- The device at the other end of X or Y link `n`. -/
def meshPeer (id n : Nat) : Nat :=
  if n < 7 then id / 4096 * 4096 + (devX id + n + 1) % 8 * 64 + devY id
  else id / 4096 * 4096 + devX id * 64 + (devY id + (n - 7) + 1) % 8

/-- BASE of the near region on member device `d`. -/
def peerBase (s : State) (o : LoadOp) (d : Nat) : Nat :=
  look o.base s.load.peers (((setMembers s.fab.id o.set).findIdx? (· == d)).getD 0)

/-- The writes that send leaf `i` to the device `d`, on the class that the descriptor names (R285, R383). DESIGN
CHOICE (log 86): their addresses are those of the receiving member's region, as its READY says. -/
def leafWrites (s : State) (o : LoadOp) (i : Nat) (bs : List Byte) (d : Nat) : List Packet :=
  (chunks 4096 ((bs.length + 4095) / 4096) bs).zipIdx.map fun p =>
    { vc := o.vc, pkey := s.fab.pkey, ptype := 4, dst := d, src := s.fab.id, len := p.1.length
      addr := peerBase s o d + i * leafSize + 4096 * p.2, data := p.1 }

/-- A near leaf sent on over a link. -/
def sendLeaf (o : LoadOp) (i : Nat) (bs : List Byte) (s : State) (n : Nat) : State :=
  let s := (leafWrites s o i bs (meshPeer s.fab.id n)).foldl (fun s p => issueRequest s p true) s
  setLoad s { s.load with sent := (i, n) :: s.load.sent }

/-- Near leaves that came before this member's start, sent on at it. -/
def sendEarly (s : State) (o : LoadOp) : State :=
  ((List.range (nearLeaves o)).filter fun i => (look none s.load.hashes i).isSome).foldl (fun s i =>
    (forwardLinks s o i).foldl (sendLeaf o i (memGet s.memory.ddr (o.base + i * leafSize) (leafBytes o i))) s) s

/-! ### The start of an operation (R287, R306) -/

/-- This member's range reaches past the near part. -/
def rangePast (o : LoadOp) : Bool := isRange o && decide (nearLeaves o < o.first + o.leaves)

/-- The load starts once READY from every member is held (R287). One that comes later belongs to the
operation after it. In a replica set, a range past the image fails the load, and an empty one is reported at
once (R306). -/
def settleReadies (s : State) (o : LoadOp) : State :=
  if (List.range (max 1 o.set)).all fun m => s.load.readies.contains m then
    let s := sendEarly (setLoad s { s.load with started := true, readies := [], peers := s.load.bases }) o
    if rangePast o then failOwn s o stMalformed
    else settleHashes s o
  else s

/-- An operation that passed its checks: it runs on the load path and READY goes to the members. -/
def startOp (s : State) (o : LoadOp) : State :=
  let me := ownMember s o
  let s := setLoad s { clearOp s.load with
    cur := some o, since := now s, computed := 0, readies := insertNat me s.load.readies
    bases := put 0 s.load.bases me o.base }
  settleReadies (sendSet s o { mtype := mtReady, a := me, b := o.base }) o

/-! ### LOAD_MODEL (R288) -/

/-- The lowest region entry that is not valid. -/
def freeRegion (m : Memory) : Option Nat := least (fun n => !(regionNo m n).valid) 63

def setRegion (s : State) (n : Nat) (r : Region) : State :=
  { s with memory := { s.memory with regions := put {} s.memory.regions n r } }

/-- Bytes `a` to `e − 1` meet a valid region. -/
def meetsRegion (m : Memory) (a e : Nat) : Bool :=
  decide (a < e) && (List.range 64).any fun n =>
    let r := regionNo m n
    r.live && decide (a ≤ r.hi ∧ r.lo < e)

/-- A size rounded up to 2 MiB. -/
def roundUnits (n : Nat) : Nat := (n + 0x1FFFFF) / unit2M * unit2M

/-- Every far segment that the bytes cover is valid and not writable (R303). -/
def farOk (m : Memory) (a n : Nat) : Bool :=
  n == 0 ||
  (a % leafSize == 0 && decide (farLo ≤ a ∧ a + n ≤ farHi) &&
    (List.range ((a + n - 1 - farLo) / farSeg + 1 - (a - farLo) / farSeg)).all fun i =>
      let g := look {} m.far ((a - farLo) / farSeg + i)
      g.valid && !g.write)

/-- How LOAD_MODEL is refused. -/
def modelRefusal (s : State) (o : LoadOp) : Option Nat :=
  if (slotAt s o.slot).state ≠ .empty ∨ (freeRegion s.memory).isNone ∨
      meetsRegion s.memory o.base (o.base + roundUnits o.near) then some stNoRes
  else if o.base % unit2M ≠ 0 ∨ ddrEnd < o.base + roundUnits o.near ∨
      (o.far ≠ 0 ∧ o.near % leafSize ≠ 0) ∨ !farOk s.memory o.farAddr o.far then some stMalformed
  else none

/-- The near region's entry, and the slot LOADING. A model without a near part has no entry. -/
def beginModel (s : State) (o : LoadOp) : State :=
  let s := match freeRegion s.memory with
    | some n =>
      if o.near = 0 then s
      else setRegion s n { valid := true, kind := 0, wp := true, slot := o.slot, base := o.base / unit2M
                           limit := (o.base + o.near - 1) / unit2M }
    | none => s
  startOp (setSlot s o.slot
    { state := .loading, split := o.split, mode := o.mode, near := o.near, farBytes := o.far
      farAddr := o.farAddr, base := o.base, epoch := 0 }) o

/-- How emptying a slot is refused. -/
def emptyRefusal (s : State) (o : LoadOp) : Option Nat :=
  let x := slotAt s o.slot
  if x.state = .empty ∨ x.state = .zeroing then some stAlready
  else if x.root ≠ o.root ∧ x.state ≠ .loading then some stMalformed
  else if (progLive s && slotBound s o.slot) || x.state != .resident then some stNoRes
  else none

/-- A LOAD_MODEL that comes to the load path. -/
def runModel (s : State) (o : LoadOp) : State :=
  if o.near = 0 ∧ o.far = 0 then
    match emptyRefusal s o with
    | some e => answerStatus s o.who e
    | none => zeroSlot s o.slot o true
  else match modelRefusal s o with
    | some e => answerStatus s o.who e
    | none => beginModel s o

/-! ### LOAD_ADAPTER (R297 to R301) -/

/-- Bytes of an adapter slot, and its first byte. -/
def adapterSize (s : State) : Nat := s.load.adUnits * unit2M
def adapterAddr (s : State) (n : Nat) : Nat := s.load.adBase * unit2M + n * adapterSize s

/-- The lowest FREE adapter slot. -/
def freeAdapter (s : State) : Option Nat :=
  if s.load.adEnable then least (fun n => (adapterAt s n).state == .free) (min 1024 s.load.adCount) else none

/-- The adapter slot of a model slot that holds the ID and the version in one of the states. -/
def adapterOf (s : State) (slot id version : Nat) (p : AdState → Bool) : Option Nat :=
  (s.load.adapters.find? fun x =>
    p x.2.state && x.2.slot == slot && x.2.id == id && x.2.version == version).map (·.1)

/-- How LOAD_ADAPTER is refused before it asks for a slot. -/
def adapterRefusal (s : State) (o : LoadOp) : Option Nat :=
  match adapterOf s o.slot o.id o.version fun x => x == .loading || x == .live with
  | some n => some (if (adapterAt s n).digest = o.root then stAlready else stMalformed)
  | none => if adapterSize s < o.near ∧ s.load.adEnable then some stMalformed else none

/-- The adapter slot taken, and the load begun. -/
def takeAdapter (s : State) (o : LoadOp) (n : Nat) : State :=
  let s := setAdapter s n { state := .loading, id := o.id, version := o.version, slot := o.slot, digest := o.root }
  startOp s { o with ad := n, base := adapterAddr s n }

/-- A LOAD_ADAPTER that waits for a FREE slot: refused where its image does not fit the slots that there are now,
or begun where one is FREE. -/
def serveWaiting (s : State) : State :=
  match s.load.cur with
  | some o =>
    if !s.load.waiting then s
    else match adapterRefusal s o with
      | some e => setLoad (answerStatus s o.who e) { clearOp s.load with cur := none }
      | none => match freeAdapter s with
        | some n => takeAdapter s o n
        | none => s
  | none => s

/-- A LOAD_ADAPTER that comes to the load path: refused, begun, or waiting there for a FREE slot. -/
def runAdapter (s : State) (o : LoadOp) : State :=
  match adapterRefusal s o with
  | some e => answerStatus s o.who e
  | none => match freeAdapter s with
    | some n => takeAdapter s o n
    | none =>
      if o.policy = 1 then setLoad s { s.load with cur := some o, waiting := true, since := now s }
      else answerStatus s o.who stNoRes

/-! ### The order of operations (R284, R292) -/

/-- An operation that comes to the load path. -/
def runOp (s : State) (o : LoadOp) : State := if o.kind = 3 then runAdapter s o else runModel s o

/-- The swap whose barrier stands, by a committed boundary, and whose writing has not begun. -/
def swapReady (s : State) : Option LoadOp :=
  match s.load.swap with
  | some o =>
    let open_ := match s.srv.decision with
      | some d => d.slotWas.isSome
      | none => false
    if (slotAt s o.slot).state = .swapping ∧ !s.load.writing ∧ !open_ then some o else none
  | none => none

/-- Writing of the swap begins. -/
def startWriting (s : State) (o : LoadOp) : State :=
  startOp (setLoad s { s.load with writing := true, matchedAt := none }) o

/-- Nothing runs on the load path: neither an operation nor a swap, which holds it from its writing until it
completes (R284, R296), and DDR is not being zeroed (14 R463). -/
def pathFree (s : State) : Bool := s.load.cur.isNone && !s.load.writing && !ddrHeld s

/-- The load path takes up its next operation, in the order read; a swap, once its barrier stands. -/
def loadNext (s : State) : State :=
  if !pathFree s then s
  else match s.load.queue with
    | o :: q =>
      if o.kind = 2 then
        match swapReady s with
        | some w => startWriting (setLoad s { s.load with queue := q }) w
        | none => s
      else runOp (setLoad s { s.load with queue := q }) o
    | [] => s

/-- An operation read from a ring: it runs at once on an idle load path, else it waits its turn. -/
def enqueueOp (s : State) (o : LoadOp) : State :=
  if pathFree s && s.load.queue.isEmpty then runOp s o
  else setLoad s { s.load with queue := s.load.queue ++ [o] }

/-- A LOAD_MODEL read from a ring. One that empties a slot is refused as it is read, if it is (R288). -/
def takeModel (s : State) (o : LoadOp) : State :=
  match (if o.near = 0 ∧ o.far = 0 then emptyRefusal s o else none) with
  | some e => answerStatus s o.who e
  | none => enqueueOp s o

/-! ### A leaf taken (R287) -/

/-- A leaf whose bytes are here: written, if near, hashed, and sent on. -/
def takeLeaf (s : State) (o : LoadOp) (i : Nat) (bs : List Byte) : State :=
  let near := decide (i < nearLeaves o)
  let s := if near then ddrWrite s (o.base + i * leafSize) bs else s
  let s := if near && s.load.started then (forwardLinks s o i).foldl (sendLeaf o i bs) s else s
  let s := setLoad s { s.load with hashes := put none s.load.hashes i (some (leafHash bs)) }
  match failedReq s with
  | some r => failOwn s o (loadReqStatus r)
  | none => settleHashes s o

/-- A swap's near leaves are written in ascending order (R292). -/
def inOrder (s : State) (o : LoadOp) (i : Nat) : Bool :=
  o.kind != 2 || decide (nearLeaves o ≤ i) ||
  least (fun k => hashesLeaf o k && (look none s.load.hashes k).isNone) (nearLeaves o) == some i

/-- LOAD_LEAF_RECEIVED: a leaf of the own share or range is read from the host's memory, one of the far part
through the far window, and any other comes from another member, which may have started before this one. While DDR is
zeroed the path takes none (14 R463). -/
def leafReceived (s : State) (leaf : Nat) (data : FetchBytes) (far : Bool) : State :=
  match if ddrHeld s then none else pendingLoad s with
  | none => s
  | some o =>
    if !s.load.started ∧ (far ∨ ownLeaf s o leaf) ∨ leafCount o ≤ leaf ∨ far ≠ decide (nearLeaves o ≤ leaf) ∨ !hashesLeaf o leaf ∨
        (look none s.load.hashes leaf).isSome ∨ !inOrder s o leaf then s
    else match readRefusal data.status with
      | some e => failOwn s o e
      | none =>
        if far then
          match farLeaf s o leaf with
          | some bs => takeLeaf s o leaf bs
          | none => failOwn s o stPoisoned
        else if ownLeaf s o leaf then
          match shareLeaf s o leaf with
          | some bs => takeLeaf s o leaf bs
          | none => failOwn s o stPoisoned
        else takeLeaf s o leaf ((data.bytes ++ List.replicate (leafBytes o leaf) 0).take (leafBytes o leaf))

/-- Hashes of another member's range; one that meets a leaf already hashed makes every member fail. -/
def takeHashes (s : State) (o : LoadOp) (m first : Nat) (hs : List Digest) : State :=
  let idx := (List.range hs.length).map (first + ·)
  if s.load.reported.contains m then s
  else if idx.any fun i => (look none s.load.hashes i).isSome || hashesLeaf o i || decide (nearLeaves o ≤ i) then
    failOwn s o stMalformed
  else
    let s := setLoad s { s.load with
      hashes := hs.zipIdx.foldl (fun f p => put none f (first + p.2) (some p.1)) s.load.hashes
      reported := insertNat m s.load.reported }
    settleHashes s o

/-! ### Zeroing complete (R289, R300) -/

/-- The slot's region zeroed and removed, and the slot EMPTY. -/
def slotZeroed (s : State) (n : Nat) : State :=
  let x := slotAt s n
  let s := setDdr s (memZero s.memory.ddr x.base (roundUnits x.near))
  let s := bumpMeas (setSlot { s with memory := dropSlotRegion s.memory n } n {})
  match s.load.cur with
  | some o =>
    if o.kind = 4 ∧ o.slot = n then
      let s := if o.answer then answerStatus s o.who stOK else s
      setLoad s { clearOp s.load with cur := none }
    else s
  | none => s

/-- The adapter slot zeroed and FREE; a LOAD_ADAPTER that waits takes it. -/
def adapterZeroed (s : State) (n : Nat) : State :=
  let s := setDdr s (memZero s.memory.ddr (adapterAddr s n) (adapterSize s))
  serveWaiting (setAdapter s n {})

/-! ### Argument blocks of loads (R424) -/

def setCode (a : Fetch) : Nat := bits (argWord a 0) 12 11
def splitCode (a : Fetch) : Nat := bits (argWord a 0) 14 13

/-- The operation that a block describes. -/
def loadOpOf (s : State) (w : Asker) (kind : Nat) (a : Fetch) : LoadOp :=
  let slot := bits (argWord a 0) 10 8
  let split := if kind = 1 then splitCode a else if setCode a = 3 then (slotAt s slot).split else 0
  { who := w, kind := kind, slot := slot
    set := match setCode a with
      | 0 => 1
      | 1 => 8
      | 2 => 64
      | _ => splitCount split
    split := split, mode := bits (argWord a 0) 15 15, vc := bits (argWord a 0) 18 16
    policy := bits (argWord a 0) 20 19, near := bits (argWord a 1) 47 0, far := bits (argWord a 2) 47 0
    base := bits (argWord a 3) 47 0, farAddr := bits (argWord a 5) 47 0, host := argWord a 4, at_ := argWord a 6
    first := bits (argWord a 7) 31 0, leaves := bits (argWord a 7) 63 32
    id := bits (argWord a 8) 19 0, version := bits (argWord a 8) 63 32
    root := digestOfBytes (wordsBytes ((List.range 4).map fun i => dw (argWord a (12 + i)))) }

/-- The set, the split and the class agree with each other and with the slot. -/
def loadSetOk (s : State) (kind : Nat) (a : Fetch) (o : LoadOp) : Bool :=
  decide (2 ≤ o.vc) &&
  (if kind = 1 then (splitCode a != 0) == (setCode a == 3)
   else ((slotAt s o.slot).split != 0) == (setCode a == 3))

/-- Fields that the type does not use are zero; bits that are no field's are ignored (R6). -/
def loadUnusedOk (kind : Nat) (a : Fetch) : Bool :=
  let zero := fun i hi lo => bits (argWord a i) hi lo == 0
  if kind = 1 then zero 0 20 19 && zero 6 63 0 && zero 8 19 0 && zero 8 63 32
  else if kind = 2 then zero 0 15 13 && zero 3 47 0 && zero 5 47 0 && zero 8 19 0 && zero 8 63 32
  else zero 0 15 13 && zero 2 47 0 && zero 3 47 0 && zero 5 47 0

/-- The policy is one of the type's. -/
def loadPolicyOk (kind : Nat) (o : LoadOp) : Bool := decide (o.policy ≤ if kind = 2 then 2 else 1)

/-- How an argument block is refused as it is read. An image of 0 bytes has no root (R282); sizes of 0
are a LOAD_MODEL's command to empty a slot. -/
def loadRefusal (s : State) (d : BitVec 512) (kind : Nat) (a : Fetch) : Option Nat :=
  let o := loadOpOf s {} kind a
  match argRefusal (descWord d 5) a with
  | some e => some e
  | none =>
    let empties := kind == 1 && o.near == 0 && o.far == 0
    if o.root = 0 ∨ !loadUnusedOk kind a then some stMalformed
    else if empties then none
    else if (o.near = 0 ∧ o.far = 0) ∨ !loadSetOk s kind a o ∨ !loadPolicyOk kind o then some stMalformed
    else none

/-! ### SWAP_MODEL (R290, R294) -/

/-- How SWAP_MODEL is refused. -/
def swapRefusal (s : State) (o : LoadOp) : Option Nat :=
  let x := slotAt s o.slot
  if o.near ≠ x.near ∨ o.far ≠ x.farBytes ∨ !(x.state = .resident ∨ x.state = .failed) ∨
      (x.state = .resident ∧ o.at_ ≤ s.srv.step + 1) then some stMalformed
  else if s.load.swap.isSome then some stNoRes
  else if x.state = .resident ∧ o.root = x.root then some stAlready
  else none

/-- The swap is scheduled, over the slot's own region and far part. -/
def scheduleSwap (s : State) (o : LoadOp) : State :=
  match swapRefusal s o with
  | some e => answerStatus s o.who e
  | none =>
    let x := slotAt s o.slot
    let o := { o with base := x.base, farAddr := x.farAddr }
    setLoad s { s.load with
      swap := some o, queue := s.load.queue ++ [o], writing := false, matchedAt := none
      drained := [], sentDrained := false, fell := none }

/-- The swap has completed: k's step has committed (R293). -/
def finishSwap (s : State) : State :=
  match s.load.swap with
  | some o =>
    let s := answerEvent s o.who stOK 0 0 o.root 0
    setLoad s { s.load with swap := none, writing := false, matchedAt := none, fell := none, drained := []
                            sentDrained := false }
  | none => s

end Sys2Proof.Machine
end

