-- ==== Sys2Proof/Machine/Load.lean ====
section
/-! DEFINITION. The commands of the load path, of model slots and of adapters (09 R284 to R308; 12 R394). -/

namespace Sys2Proof.Machine

open Sys2Proof

/-! ### Descriptors (R288, R290, R301, R302, R424) -/

/-- A load descriptor: refused as its block is read, or handed on. -/
def takeLoad (s : State) (f r : Nat) (d : BitVec 512) (args : Fetch) (t kind : Nat)
    (run : State → LoadOp → State) : State :=
  takeDesc s f r d t fun s w =>
    match loadRefusal s d kind args with
    | some e => answerStatus s w e
    | none => run s (loadOpOf s w kind args)

/-- LOAD_MODEL (R288). -/
def execLoadModel (f r : Nat) (d : BitVec 512) (args : Fetch) (s : State) : Out :=
  .next (takeLoad s f r d args dtLoadModel 1 takeModel)

/-- SWAP_MODEL (R290). -/
def execSwapModel (f r : Nat) (d : BitVec 512) (args : Fetch) (s : State) : Out :=
  .next (takeLoad s f r d args dtSwapModel 2 scheduleSwap)

/-- LOAD_ADAPTER (R301). -/
def execLoadAdapter (f r : Nat) (d : BitVec 512) (args : Fetch) (s : State) : Out :=
  .next (takeLoad s f r d args dtLoadAdapter 3 enqueueOp)

/-- The status of a retirement as it is read; none: a LIVE version, which the next boundary retires. -/
def retireStatus (s : State) (d : BitVec 512) : Option Nat :=
  let find := adapterOf s (bits (descWord d 0) 34 32) (bits (descWord d 0) 55 36) (bits (descWord d 2) 31 0)
  if (find (· == .live)).isSome then none
  else if (find (· == .retiring)).isSome then some stAlready
  else some stAdapter

/-- A retirement read: settled at the next boundary of a live step program, else at once (R302). -/
def takeRetire (s : State) (d : BitVec 512) (w : Asker) : State :=
  match retireStatus s d with
  | some e => answerStatus s w e
  | none =>
    let n := (adapterOf s (bits (descWord d 0) 34 32) (bits (descWord d 0) 55 36) (bits (descWord d 2) 31 0)
      (· == .live)).getD 0
    if progLive s && s.prog.step then
      { s with srv := { s.srv with retires := s.srv.retires ++ [{ who := w, kind := 6, idx := n }] } }
    else
      let x := retireAdapter s n
      settleAdapter (answerStatus x.1 w x.2) n

/-- RETIRE_ADAPTER (R302). -/
def execRetireAdapter (f r : Nat) (d : BitVec 512) (s : State) : Out :=
  .next (takeDesc s f r d dtRetire fun s w => takeRetire s d w)

/-! ### The load path (R284) -/

/-- LOAD_PATH_NEXT (R284). -/
def execLoadPathNext (s : State) : Out := .next (loadNext s)

/-! ### Messages of the members (R287, R291, R306) -/

/-- READY of member `m`: held until the operation that it belongs to begins. -/
def readyFrom (s : State) (m : ReadyMsg) : State :=
  let s := setLoad s { s.load with
    readies := insertNat m.member s.load.readies, bases := put 0 s.load.bases m.member m.base }
  match s.load.cur with
  | some o => if s.load.started ∨ s.load.waiting ∨ o.kind = 4 then s else settleReadies s o
  | none => s

/-- READY (R287). -/
def execReady (a : Auth) (m : ReadyMsg) (s : State) : Out := .next (withAuth s .member a fun s => readyFrom s m)

/-- 2^28 ticks after this member's own READY without all the others'. -/
def readyLate (s : State) : State :=
  match s.load.cur with
  | some o =>
    if s.load.started ∨ s.load.waiting ∨ o.kind = 4 then s
    else failOwn (advance s (s.load.since + 2 ^ 28)) o stTimeout
  | none => s

/-- READY_TIMEOUT (R287). -/
def execReadyTimeout (s : State) : Out := .next (readyLate s)

/-- LOAD_LEAF_RECEIVED (R287). -/
def execLoadLeafReceived (leaf : Nat) (data : FetchBytes) (far : Bool) (s : State) : Out :=
  .next (leafReceived s leaf data far)

/-- A verdict of member `m`: a failure also ends a load that has not started. -/
def verdictFrom (s : State) (m status : Nat) : State :=
  match s.load.cur with
  | some o =>
    if o.kind = 4 ∨ s.load.waiting then s
    else settleLoadVerdicts (setLoad s { s.load with verdicts := s.load.verdicts ++ [(m, status)] }) o
  | none => s

/-- VERDICT (R287). -/
def execVerdict (a : Auth) (member status : Nat) (s : State) : Out :=
  .next (withAuth s .member a fun s => verdictFrom s member (heldStatus status))

/-- DRAINED (R291). -/
def execDrained (a : Auth) (member step : Nat) (s : State) : Out :=
  .next (withAuth s .member a fun s => setLoad s { s.load with drained := s.load.drained ++ [(member, step)] })

/-- LEAF_HASHES (R306). -/
def execLeafHashes (a : Auth) (member first : Nat) (hashes : List Digest) (s : State) : Out :=
  .next (withAuth s .member a fun s =>
    match pendingLoad s with
    | some o => takeHashes s o member first hashes
    | none => s)

/-- The address of the manifest of step `n` (R250). -/
def manifestAddr (s : State) (n : Nat) : Nat := areaAddr s + n % 2 * manifestSize s.prog.table

/-- STEP of a manifest's header. -/
def manifestStep (bs : List Byte) : Nat := leNat ((bs.drop 8).take 8)

/-- MANIFEST (R308). -/
def execManifest (a : Auth) (bytes : List Byte) (s : State) : Out :=
  .next (withAuth s .member a fun s =>
    if progLive s && s.prog.step then
      ddrWrite s (manifestAddr s (manifestStep bytes)) (bytes.take (manifestSize s.prog.table))
    else s)

/-! ### Adapters and zeroing (R289, R297, R300, R301) -/

/-- Setting ENABLE creates the adapter region in the lowest free entry (R297). A configuration that the
manual refuses sets CFG_REJECT. -/
def enableAdapters (s : State) (units count : Nat) : State :=
  if progLive s ∨ s.load.adapters ≠ [] then
    { s with srv := { s.srv with cfgReject := true } }
  else
    let s := setLoad s { s.load with adUnits := units % 2 ^ 16, adCount := count % 2 ^ 11 }
    let units := s.load.adUnits * min 1024 s.load.adCount
    match freeRegion s.memory with
    | some n =>
      if units = 0 ∨ s.load.adEnable ∨ ddrEnd < (s.load.adBase + units) * unit2M ∨
          meetsRegion s.memory (s.load.adBase * unit2M) ((s.load.adBase + units) * unit2M) then s
      else
        serveWaiting (setLoad (setRegion s n { valid := true, kind := 2, wp := true, base := s.load.adBase
                                               limit := s.load.adBase + units - 1 })
          { s.load with adEnable := true })
    | none => s

/-- ADAPTER_REGION_ENABLE (R297). -/
def execAdapterRegionEnable (units count : Nat) (s : State) : Out := .next (enableAdapters s units count)

/-- WAIT_TICKS have passed without a FREE slot: the load path is free again. -/
def adapterWaited (s : State) : State :=
  match s.load.cur with
  | some o =>
    if s.load.waiting then
      let s := answerStatus (advance s (s.load.since + o.at_)) o.who stNoRes
      setLoad s { clearOp s.load with cur := none }
    else s
  | none => s

/-- ADAPTER_WAIT_TIMEOUT (R301). -/
def execAdapterWaitTimeout (s : State) : Out := .next (adapterWaited s)

/-- SLOT_ZEROING_COMPLETE (R289). -/
def execSlotZeroingComplete (n : Nat) (s : State) : Out :=
  .next (if n < 8 ∧ (slotAt s n).state = .zeroing then slotZeroed s n else s)

/-- ADAPTER_ZEROING_COMPLETE (R300): its writes draw on the step's SCRUB_BYTES. -/
def execAdapterZeroingComplete (n : Nat) (s : State) : Out :=
  .next (if n < 1024 ∧ (adapterAt s n).state = .zeroing ∧ scrubAllows s (adapterSize s) then
      adapterZeroed (scrubUse s (adapterSize s)) n
    else s)

end Sys2Proof.Machine
end

