-- ==== Sys2Proof/Machine/SettleOps.lean ====
section
/-! DEFINITION. The first half of a step boundary: results, poisoned pages, natural ends, cancels, deadlines, adapters, swaps, switches and budgets (05 R159; 08 R247 to R254, R264 to R267, R271, R272, R276; 09 R291 to R299, R302; 10 R322, R331). -/

namespace Sys2Proof.Machine

open Sys2Proof

/-! ### The decision being formed -/

def curDecision (s : State) : Decision := s.srv.decision.getD {}
def setDecision (s : State) (d : Decision) : State := { s with srv := { s.srv with decision := some d } }
def addOut (s : State) (o : Outcome) : State :=
  setDecision s { curDecision s with outs := (curDecision s).outs ++ [o] }
def addLater (s : State) (l : Later) : State :=
  setDecision s { curDecision s with later := (curDecision s).later ++ [l] }

/-- The numbers of the entries outside FREE. -/
def openReqs (s : State) : List Nat := s.srv.books.reqs.map (·.1)

/-- The request is neither FREE nor ENDING. -/
def unended (r : Req) : Bool := r.state != .free && r.state != .ending

/-- The slot that request `i` had in the step, in the decision. -/
def slotOut (i : Nat) (o : Outcome) : Bool := o.req == i && decide (o.kind < 3)

/-- A terminal status decided. -/
def endReq (s : State) (i status : Nat) : State :=
  let s := updReq s i fun r => { r with state := .ending, status := status }
  let d := curDecision s
  if d.outs.any (slotOut i) then
    setDecision s { d with outs := d.outs.map fun o => if slotOut i o then { o with done := some status } else o }
  else addOut s { req := i, kind := 4, done := some status, pos := (reqAt s i).tag.toNat }

/-! ### Step 2: requests of a disabled function (R247, R438) -/

def fnGone (s : State) (r : Req) : Bool := (fnAt s r.fn).gen != r.gen

def endSilent (s : State) (i : Nat) : State :=
  let r := reqAt s i
  if unended r && fnGone s r then
    let slot := s.srv.books.bound.find? fun b => b.req == i
    addOut (updReq s i fun r => { r with state := .ending, noProof := true })
      { req := i, kind := (slot.map (·.kind)).getD 4, pos := (slot.map (·.pos)).getD r.tag.toNat
        done := some stFnDisabled, silent := true, gone := true }
  else s

/-! ### REPREFILL (R254) -/

/-- Positions whose KV is to be computed before decode goes on. -/
def fillTotal (r : Req) : Nat := r.prompt.length + if r.reprefill then r.output.length else 0

/-- The state in which a request's KV is computed again. -/
def refillState (x : ReqState) : ReqState := if x = .decode ∨ x = .attrib then .prefill else x

/-- The KV is computed again from position 0. Pages that something else holds too are given up; the
request's own are used again. `flag`: REPREFILL is set. -/
def reprefill (s : State) (i : Nat) (flag : Bool) : State :=
  let r := reqAt s i
  let shared := r.pages.filter fun p => decide (1 < look 0 s.srv.books.refs p)
  let own := r.pages.filter fun p => decide (look 0 s.srv.books.refs p ≤ 1)
  let left := if r.firstStep = 0 then 0 else contextPages s r - own.length
  let s := setBooks s (shared.foldl dropPage s.srv.books)
  updReq s i fun r =>
    { r with
      state := refillState r.state, resume := refillState r.resume, reprefill := r.reprefill || flag
      prefilled := 0, hit := if r.firstStep = 0 then 0 else r.hit, pages := own, reserved := left, part := 0
      scores := [] }

/-! ### Steps 1, 3 and 4: results (R247, R252, R271, R272) -/

/-- The shape of the running step. -/
def stepShape (s : State) : Shape := nth {} s.prog.table.shapes s.srv.books.variant

/-- Chunks of a shape. -/
def chunksOf (s : State) (x : Shape) : Nat := x.p / max 1 s.prog.table.chunk

def contextLen (r : Req) : Nat := r.prompt.length + r.output.length

/-- Number of a slot's result. -/
def resultIndex (s : State) (b : Bound) : Nat :=
  match b.kind with
  | 0 => b.slot
  | 1 => (stepShape s).d + b.slot
  | _ => (stepShape s).d + chunksOf s (stepShape s) + b.slot

def resultAddr (s : State) (b : Bound) : Nat := s.prog.table.result + 4 * resultIndex s b

/-- Attribution parts of a request. -/
def attrParts (s : State) (r : Req) : Nat :=
  (contextLen r + s.prog.table.attr - 1) / max 1 s.prog.table.attr

/-- Named outputs: the last output token when none is named. -/
def namedOutputs (r : Req) : List Nat := if r.outputs = [] then [r.output.length] else r.outputs

/-- Where a part's scores lie, and how many bytes they are. -/
def scoreAddr (s : State) (b : Bound) : Nat := s.prog.table.scores + b.slot * s.prog.table.stride
def scoreLen (s : State) (r : Req) (part : Nat) : Nat :=
  4 * (namedOutputs r).length * min s.prog.table.attr (contextLen r - part * s.prog.table.attr)

/-- A word that the boundary reads is uncorrectable. -/
def resultsBad (s : State) : Bool :=
  s.srv.books.bound.any fun b =>
    badWords s.memory.ddr (resultAddr s b) 4 != [] ||
    (b.kind == 2 && badWords s.memory.ddr (scoreAddr s b) (scoreLen s (reqAt s b.req) b.pos) != [])

/-- The step's KV of the request was substituted. -/
def namedPoisoned (s : State) (r : Req) : Bool := r.pages.any fun p => s.srv.substs.contains p

/-- A bound slot of a poisoned request: its token is discarded. -/
def discardSlot (s : State) (b : Bound) : State :=
  addOut (reprefill s b.req true) { req := b.req, kind := b.kind, pos := b.pos }

/-- An output token, provisional until the step commits. -/
def takeToken (s : State) (b : Bound) (filled : Nat) (t : Word) : State :=
  let r := reqAt s b.req
  let out := r.output ++ [t]
  let complete := r.stops.contains t || decide (r.maxNew ≤ out.length)
  let s := updReq s b.req fun r =>
    { r with
      output := out, outState := stepOutput r.outState t, prefilled := filled, reprefill := false
      state := if complete then (if r.explain then .attrib else .ending) else .decode, status := stOK }
  addOut s { req := b.req, kind := b.kind, token := some t, idx := out.length, pos := b.pos
             done := if complete ∧ !r.explain then some stOK else none }

/-- The output is complete: only attribution is left. -/
def outputComplete (r : Req) : Bool :=
  decide (r.maxNew ≤ r.output.length) || (match r.output.getLast? with
    | some t => r.stops.contains t
    | none => false)

/-- Blocks of the prompt that positions `a` to `e − 1` complete (R263). -/
def fullBlocks (s : State) (r : Req) (a e : Nat) : List Nat :=
  (List.range (min e r.prompt.length / pageTokens s)).filter fun k => decide (a < (k + 1) * pageTokens s)

/-- A chunk computed: the last one gives a token, discarded where the KV was only computed again. -/
def takeChunk (s : State) (b : Bound) (t : Word) : State :=
  let r := reqAt s b.req
  let e := b.pos + b.len
  let s := { s with srv := { s.srv with
    partial_ := s.srv.partial_ ++ (fullBlocks s r b.pos e).map fun k => (b.req, k) } }
  if !b.last then
    addOut (updReq s b.req fun r => { r with prefilled := e }) { req := b.req, kind := 1, pos := b.pos }
  else if r.output = [] then takeToken s b e t
  else
    addOut (updReq s b.req fun r =>
      { r with prefilled := e, reprefill := false
               state := if outputComplete r ∧ r.explain then .attrib else .decode })
      { req := b.req, kind := 1, pos := b.pos }

/-- An attribution part computed; the last one ends the request. -/
def takePart (s : State) (b : Bound) : State :=
  let r := reqAt s b.req
  let sc := memGet s.memory.ddr (scoreAddr s b) (scoreLen s r b.pos)
  let s := updReq s b.req fun r => { r with part := b.pos + 1, scores := r.scores ++ [sc] }
  let s := addOut s { req := b.req, kind := 2, pos := b.pos }
  if attrParts s r ≤ b.pos + 1 then endReq s b.req stOK else s

/-- What a bound slot of the step brought. -/
def settleSlot (s : State) (b : Bound) : State :=
  let r := reqAt s b.req
  if !unended r then s
  else if s.srv.substFull || namedPoisoned s r then discardSlot s b
  else
    let t : Word := BitVec.ofNat 32 (memNat s.memory.ddr (resultAddr s b) 4)
    match b.kind with
    | 0 => takeToken s b (b.pos + 1) t
    | 1 => takeChunk s b t
    | _ => takePart s b

/-- A request that had no slot in the step and whose pages were substituted. -/
def poisonIdle (s : State) (i : Nat) : State :=
  let r := reqAt s i
  if unended r && namedPoisoned s r && !(curDecision s).outs.any (slotOut i) then reprefill s i true else s

/-- Substituted pages leave the prefix index (R258). -/
def dropPoisoned (s : State) : State :=
  let b := s.srv.books
  let gone := b.pfx.filter fun e => s.srv.substs.contains e.page
  setBooks s (gone.foldl (fun b e => dropPage b e.page)
    { b with pfx := b.pfx.filter fun e => !s.srv.substs.contains e.page })

/-- Words in error among what the boundary reads of a slot raise their channels' scores (R151). -/
def scoreResult (s : State) (b : Bound) : State :=
  let s := scoreRead s (resultAddr s b) 4
  if b.kind = 2 then scoreRead s (scoreAddr s b) (scoreLen s (reqAt s b.req) b.pos) else s

def scoreResults (s : State) : State := s.srv.books.bound.foldl scoreResult s

/-- Admissions journaled with the step: requests first bound in it. -/
def addAdmissions (s : State) : State :=
  s.srv.books.bound.foldl (fun s b =>
    let r := reqAt s b.req
    if r.firstStep = s.srv.curStep then addOut s { req := b.req, kind := 3, pos := r.tag.toNat } else s) s

/-- Steps 1 to 4. -/
def settleResults (s : State) : State :=
  let s := scoreResults s
  let s := (openReqs s).foldl endSilent s
  let s := dropPoisoned s
  let s := s.srv.books.bound.foldl settleSlot s
  (openReqs s).foldl poisonIdle (addAdmissions s)

/-! ### Steps 5 and 6: cancels and deadlines (R247, R276) -/

/-- A cancel at its boundary. -/
def applyCancel (s : State) (l : Later) : State :=
  let r := reqAt s l.idx
  if unended r && r.tag == l.tag then
    addLater (endReq s l.idx stCancelled) { l with status := stOK }
  else addLater s { l with status := stAlready }

def applyCancels (s : State) : State :=
  let cs := s.srv.cancels
  cs.foldl applyCancel { s with srv := { s.srv with cancels := [] } }

/-- LATE under DELIVER_LATE: of a request whose end no earlier boundary has decided (R276). -/
def markLate (s : State) (i : Nat) : State :=
  if (reqAt s i).state = .ending ∧ !(curDecision s).outs.any (fun o => o.req == i && o.done.isSome) then s
  else updReq s i fun r => { r with late := true }

/-- A request's deadline at tick `t`. -/
def applyDeadline (t : Nat) (s : State) (i : Nat) : State :=
  let r := reqAt s i
  if r.state = .free ∨ r.noProof ∨ r.deadline = 0 ∨ t < r.deadline then s
  else if r.expire then (if r.state = .ending then s else endReq s i stDeadline)
  else markLate s i

def applyDeadlines (t : Nat) (s : State) : State := (openReqs s).foldl (applyDeadline t) s

/-! ### Step 7: adapters (R299, R302) -/

/-- A verified adapter goes LIVE, and the LIVE version of the same ID before it goes RETIRING. -/
def liveOne (s : State) (a : Nat) : State :=
  let x := adapterAt s a
  if x.state = .loading ∧ x.verified then
    let old := (s.load.adapters.filter fun p =>
      p.2.state == .live && p.2.id == x.id && p.2.slot == x.slot).map (·.1)
    let s := old.foldl (fun s o => setAdapter s o { adapterAt s o with state := .retiring }) s
    let s := bumpMeas (setAdapter s a { x with state := .live, verified := false })
    let d := curDecision s
    setDecision s { d with lived := d.lived ++ [a], retired := d.retired ++ old }
  else s

def liveAdapters (s : State) : State := (s.load.adapters.map (·.1)).foldl liveOne s

/-- A retirement at its boundary. -/
def applyRetire (s : State) (l : Later) : State :=
  let x := retireAdapter s l.idx
  let s := addLater x.1 { l with status := x.2 }
  if x.2 = stOK then setDecision s { curDecision s with retired := (curDecision s).retired ++ [l.idx] } else s

def applyRetires (s : State) : State :=
  let rs := s.srv.retires
  rs.foldl applyRetire { s with srv := { s.srv with retires := [] } }

/-! ### Step 7: swaps and switches (R291 to R294, R322, R331) -/

/-- A swap or switch under CONTINUE (0) or REPREFILL (1) that reaches a bound request at the boundary
before step `k`. -/
def changeVersion (s : State) (i k policy : Nat) : State :=
  let r := reqAt s i
  if 4 ≤ r.swapCount then endReq s i stVersion
  else
    let w := r.output.length % 2 ^ 32 + policy * 2 ^ 32 + (k - r.firstStep) % 2 ^ 31 * 2 ^ 33
    let s := updReq s i fun r =>
      { r with swapStep := k % 2 ^ 48, swapCount := r.swapCount + 1, swaps := r.swaps ++ [dw w] }
    if policy = 1 then reprefill s i true else s

/-- A slot other than `n` whose swap failed: its barrier stands until a swap on it succeeds (R294). -/
def barrierKept (s : State) (n : Nat) : Bool :=
  (List.range 8).any fun m => m != n && (slotAt s m).state == .failed

/-- A request as the barrier falls: it returns to its state, unless another slot's barrier stands. -/
def fallReq (o : LoadOp) (k : Nat) (s : State) (i : Nat) : State :=
  let s := updReq s i fun r =>
    if r.state = .held ∧ !barrierKept s o.slot then { r with state := r.resume, resume := .free } else r
  let r := reqAt s i
  if !unended r ∨ r.slot ≠ o.slot then s
  else if r.firstStep = 0 ∨ 2 ≤ o.policy then reprefill s i false
  else changeVersion s i k o.policy

/-- The swap whose barrier falls at this boundary. -/
def swapFalls (s : State) : Option LoadOp :=
  match s.load.swap, s.load.matchedAt with
  | some o, some m =>
    if s.load.writing ∧ m ≤ s.srv.stepAt ∧ s.load.fell.isNone then some o else none
  | _, _ => none

/-- The barrier falls. -/
def fall (s : State) (o : LoadOp) : State :=
  let k := s.srv.curStep + 1
  let x := slotAt s o.slot
  let s := setDecision s { curDecision s with slotWas := some (o.slot, x) }
  let s := bumpMeas (setSlot s o.slot { x with
    state := .resident, root := o.root, epoch := (x.epoch + 1) % 2 ^ 16, change := k, progress := 100 })
  let s := setBooks s { emptyPrefix s.srv.books with barrier := barrierKept s o.slot }
  let s := setLoad s { s.load with fell := some k }
  (openReqs s).foldl (fallReq o k) s

/-- A request of the slot has been bound and runs. -/
def slotRuns (s : State) (n : Nat) : Bool :=
  s.srv.books.reqs.any fun p => unended p.2 && p.2.slot == n && p.2.firstStep != 0

/-- A DRAIN swap from its AT_STEP on, on a slot whose barrier has not risen. -/
def draining (s : State) : Option LoadOp :=
  match s.load.swap with
  | some o =>
    if o.policy = 2 ∧ o.at_ ≤ s.srv.curStep ∧ (slotAt s o.slot).state = .resident ∧ !s.load.writing then some o
    else none
  | none => none

/-- DRAINED sent at the first boundary without a bound request on the slot (R291). -/
def tellDrained (s : State) : State :=
  match draining s with
  | some o =>
    if s.load.sentDrained ∨ slotRuns s o.slot then s
    else
      let me := ownMember s o
      let s := setLoad s { s.load with
        sentDrained := true, drained := s.load.drained ++ [(me, s.srv.curStep)] }
      sendSet s o { mtype := mtDrained, a := me, b := s.srv.curStep }
  | none => s

/-- s_max, once every member's DRAINED is held. -/
def drainedMax (s : State) (o : LoadOp) : Option Nat :=
  if (List.range (max 1 o.set)).all fun m => s.load.drained.any fun p => p.1 == m then
    some ((s.load.drained.map (·.2)).foldl max 0)
  else none

/-- The swap whose barrier rises at this boundary. -/
def swapRises (s : State) : Option LoadOp :=
  match s.load.swap with
  | some o =>
    let x := (slotAt s o.slot).state
    let due := if o.policy = 2 then (match drainedMax s o with
        | some m => decide (m + 2 ≤ s.srv.curStep)
        | none => false)
      else decide (o.at_ ≤ s.srv.curStep)
    if (x = .failed ∨ x = .resident ∧ due) ∧ !s.load.writing ∧ s.load.fell.isNone then some o else none
  | none => none

/-- A request as the barrier rises. -/
def holdReq (s : State) (i : Nat) : State :=
  updReq s i fun r => if unended r && r.state != .held then { r with state := .held, resume := r.state } else r

/-- The barrier rises; over a FAILED slot it stands already. -/
def rise (s : State) (o : LoadOp) : State :=
  let x := slotAt s o.slot
  let s := setDecision s { curDecision s with slotWas := some (o.slot, x) }
  let s := bumpMeas (setSlot s o.slot { x with state := .swapping, progress := 0 })
  let s := setBooks s { s.srv.books with barrier := true }
  (openReqs s).foldl holdReq s

/-- The swap at this boundary. -/
def applySwap (s : State) : State :=
  match swapFalls s with
  | some o => fall s o
  | none =>
    let s := tellDrained s
    match swapRises s with
    | some o => rise s o
    | none => s

/-- One switch of a bound request applied. -/
def switchTo (i : Nat) (s : State) (w : Switch) : State :=
  changeVersion (updReq s i fun r => { r with slot := w.slot }) i (s.srv.curStep + 1) w.policy

/-- The switches of a bound request at the first boundary at which their count is reached, in the order of its
list; `ok`: the request's switches may be applied. -/
def applySwitch (ok : Req → Bool) (s : State) (i : Nat) : State :=
  let r := reqAt s i
  if !unended r ∨ r.firstStep = 0 ∨ !ok r then s
  else (r.switches.filter fun w => w.count == r.output.length).foldl (switchTo i)
    (updReq s i fun r => { r with switches := r.switches.filter fun w => w.count != r.output.length })

/-- Requests that a switch reaches now. -/
def switching (s : State) : List Nat :=
  (openReqs s).filter fun i =>
    let r := reqAt s i
    unended r && r.firstStep != 0 && r.switches.any fun w => w.count == r.output.length

/-! ### Step 8: budgets (R264, R265) -/

/-- A budget change at its boundary. -/
def applyBudgetAt (t : Nat) (s : State) (l : Later) : State :=
  let x := applyBudget s t l
  addLater x.1 { l with status := x.2 }

def applyBudgets (t : Nat) (s : State) : State :=
  let bs := s.srv.budgets
  bs.foldl (applyBudgetAt t) { s with srv := { s.srv with budgets := [] } }

/-- A bucket refilled at tick `t`. -/
def refill (t : Nat) (x : Tenant) : Tenant :=
  if x.valid then
    { x with level := min (x.burst * 2 ^ 32) (x.level + x.rate * (t - x.refilled)), refilled := t }
  else x

def refillAll (t : Nat) (s : State) : State :=
  (s.srv.books.tenants.map (·.1)).foldl (fun s i => setTenant s i (refill t (tenantAt s i))) s

end Sys2Proof.Machine
end

