-- ==== Sys2Proof/Machine/BindOps.lean ====
section
/-! DEFINITION. The second half of a step boundary: admission order, the variant, charges, reservations, pages, bindings and the manifest; the followers of a pair and of a replica set (08 R246 to R257, R266 to R271, R274; 09 R291, R308; 10 R324, R333, R335; 13 R430). -/

namespace Sys2Proof.Machine

open Sys2Proof

/-! ### Charges (R266, R267) -/

def chunkTokens (s : State) : Nat := max 1 s.prog.table.chunk

/-- LEN of a request's next chunk. -/
def chunkLen (s : State) (r : Req) : Nat := min (chunkTokens s) (fillTotal r - r.prefilled)

/-- The kind of slot that a request asks for. -/
def kindOf (r : Req) : Option Nat :=
  match r.state with
  | .decode => some 0
  | .queued => some 1
  | .prefill => some 1
  | .attrib => some 2
  | _ => none

/-- What binding the request costs its tenant. -/
def chargeOf (s : State) (r : Req) : Nat :=
  match kindOf r with
  | some 0 => 2 ^ 32
  | some 1 => chunkLen s r * (tenantAt s r.tenant).cost * 2 ^ 24
  | _ => s.prog.table.attr * (tenantAt s r.tenant).cost * 2 ^ 24

def canPay (s : State) (r : Req) : Bool := decide (chargeOf s r ≤ (tenantAt s r.tenant).level)

/-- A never bound request that its tenant's policy REJECT ends. -/
def rejectOne (s : State) (i : Nat) : State :=
  let r := reqAt s i
  let t := tenantAt s r.tenant
  if r.state = .queued ∧ r.firstStep = 0 ∧ t.reject ∧ !canPay s r then
    endReq (setTenant s r.tenant { t with rejected := satInc 32 t.rejected }) i stBudget
  else s

/-! ### Candidates and their order (R268, R430) -/

/-- A DRAIN swap keeps the never bound requests of its slot QUEUED. -/
def keptQueued (s : State) (r : Req) : Bool :=
  match draining s with
  | some o => r.slot == o.slot && r.firstStep == 0
  | none => false

def isCandidate (s : State) (i : Nat) : Bool :=
  let r := reqAt s i
  (kindOf r).isSome && (slotAt s r.slot).state == .resident && decide ((fnAt s r.fn).held.length ≤ 4096) && !keptQueued s r

/-- The index of the first shape of a list with the largest value. -/
def firstMax (f : Shape → Nat) (l : List Shape) : Option (Nat × Shape) :=
  l.zipIdx.foldl (fun (m : Option (Nat × Shape)) x =>
    match m with
    | some (i, y) => if f y < f x.1 then some (x.2, x.1) else some (i, y)
    | none => some (x.2, x.1)) none

/-- The index of the first shape, among those that `p` admits, with the smallest STEP_TICKS. -/
def firstMin (p : Shape → Bool) (l : List Shape) : Option (Nat × Shape) :=
  l.zipIdx.foldl (fun (m : Option (Nat × Shape)) x =>
    if !p x.1 then m
    else match m with
      | some (i, y) => if x.1.ticks < y.ticks then some (x.2, x.1) else some (i, y)
      | none => some (x.2, x.1)) none

/-- E: STEP_TICKS of the variant with the largest D + P. -/
def slackTicks (s : State) : Nat :=
  match firstMax (fun x => x.d + x.p) s.prog.table.shapes with
  | some x => x.2.ticks
  | none => 0

/-- The slack of a request at tick `t`. LAST_TOKEN is that of the entry as the boundary finds it. -/
def slackOf (s : State) (t : Nat) (r : Req) : Int :=
  let e : Int := slackTicks s
  if r.state = .queued ∨ r.state = .prefill then
    if r.ttft = 0 then 2 ^ 62
    else
      let n := (fillTotal r - r.prefilled + chunkTokens s - 1) / chunkTokens s
      (r.arrival : Int) + r.ttft - t - n * e
  else if r.tbt = 0 then 2 ^ 62
  else (r.lastTok : Int) + r.tbt - t - e

/-- Slack, ARRIVAL and request index in their order. -/
def candBefore (a b : Int × Nat × Nat) : Bool :=
  decide (a.1 < b.1 ∨ a.1 = b.1 ∧ (a.2.1 < b.2.1 ∨ a.2.1 = b.2.1 ∧ a.2.2 < b.2.2))

def insertCand (a : Int × Nat × Nat) : List (Int × Nat × Nat) → List (Int × Nat × Nat)
  | [] => [a]
  | b :: l => if candBefore a b then a :: b :: l else b :: insertCand a l

/-- The candidates at tick `t`, in order. -/
def candidates (s : State) (t : Nat) : List Nat :=
  (((openReqs s).filter (isCandidate s)).foldr (fun i l =>
    insertCand (slackOf s t (reqAt s i), (reqAt s i).arrival, i) l) []).map (·.2.2)

/-! ### The variant (R249, R269) -/

/-- The variant of a step that binds nothing. -/
def maskedVariant (t : StepTable) : Nat :=
  match t.shapes.findIdx? fun x => x.d == 0 && x.p == 0 && x.a == 0 with
  | some i => i
  | none => match firstMin (fun _ => true) t.shapes with
    | some x => x.1
    | none => 0

/-- Candidates of a kind whose tenant can pay. -/
def payable (s : State) (kind : Nat) (l : List Nat) : Nat :=
  (l.filter fun i => kindOf (reqAt s i) == some kind && canPay s (reqAt s i)).length

/-- The variant for the candidates. -/
def chooseVariant (s : State) (l : List Nat) : Nat :=
  let d := payable s 0 l
  let c := payable s 1 l
  let a := payable s 2 l
  match firstMin (fun x => decide (d ≤ x.d ∧ c ≤ chunksOf s x ∧ a ≤ x.a)) s.prog.table.shapes with
  | some x => x.1
  | none => match firstMax (fun x => x.d + x.p + x.a) s.prog.table.shapes with
    | some x => x.1
    | none => 0

/-! ### Binding (R255, R256, R266, R269) -/

/-- At the first binding: the pages of the whole context reserved, and the token store. -/
def reserveFirst (s : State) (i : Nat) : Option State :=
  let r := reqAt s i
  if r.firstStep ≠ 0 then some s
  else
    let n := contextPages s r - r.pages.length
    if pagesFree s.srv.books < reservedPages s.srv.books + n then none
    else
      let s := ensureStore s i
      if (reqAt s i).storeLen = 0 then none
      else some (updReq s i fun r => { r with reserved := n })

/-- Pages taken from the free list. -/
def takePages : Nat → Books → Option (List Nat × Books)
  | 0, b => some ([], b)
  | n + 1, b => match takePage b with
    | some (p, b) => match takePages n b with
      | some (ps, b) => some (p :: ps, b)
      | none => none
    | none => none

/-- The first position of a slot and how many positions it computes. -/
def slotSpan (s : State) (kind : Nat) (r : Req) : Nat × Nat :=
  match kind with
  | 0 => (contextLen r - 1, 1)
  | 1 => (r.prefilled, chunkLen s r)
  | _ => (r.part, 0)

/-- Pages that the context must have for a slot of that span. -/
def pagesFor (s : State) (kind : Nat) (sp : Nat × Nat) : Nat :=
  if 2 ≤ kind then 0 else (sp.1 + sp.2 + pageTokens s - 1) / pageTokens s

/-- The attribution list after the request's tokens (R271). -/
def writeAttrList (s : State) (i : Nat) : State :=
  let r := reqAt s i
  if r.state = .attrib then
    ddrWrite s (tokenAddr s r (contextLen r)) ((namedOutputs r).flatMap fun n => leBytes 4 n)
  else s

/-- The request's entry as it is bound for step `k`. -/
def boundReq (s : State) (k : Nat) (ps : List Nat) (r : Req) : Req :=
  let r := { r with pages := r.pages ++ ps, reserved := r.reserved - ps.length
                    state := if r.state = .queued then .prefill else r.state }
  if r.firstStep = 0 then
    { r with firstStep := k, epoch := (slotAt s r.slot).epoch, root := (slotAt s r.slot).root, slotAt := r.slot }
  else r

/-- The first position of a slot and how many positions it computes, as a leading partner's record says
(table of R251). -/
def recSpan (kind : Nat) (p : PairRec) : Nat × Nat :=
  let lo := p.w0.toNat % 2 ^ 32
  let hi := p.w0.toNat / 2 ^ 32
  match kind with
  | 0 => (hi, 1)
  | 1 => (lo, hi)
  | _ => (hi, 0)

/-- A request bound to slot `n` of a kind, where its tenant can pay and its pages are there; `lead`: the
record that a leading partner decided, for which its tenant pays there. -/
def bindOne (s : State) (lead : Option PairRec) (kind n i : Nat) : Option State :=
  let r := reqAt s i
  let pay := lead.isNone
  let spanOf := fun r => match lead with
    | some p => recSpan kind p
    | none => slotSpan s kind r
  if pay && !canPay s r then none
  else match reserveFirst s i with
    | none => none
    | some s' =>
      let r' := reqAt s' i
      let sp := spanOf r'
      match takePages (pagesFor s kind sp - r'.pages.length) s'.srv.books with
      | none => none
      | some (ps, b) =>
        let t := tenantAt s r.tenant
        let s' := setBooks s' { b with bound := b.bound ++ [
          { req := i, kind := kind, slot := n, pos := sp.1, len := sp.2
            last := kind == 1 && decide (fillTotal r' ≤ sp.1 + sp.2), lead := lead }] }
        let s' := if pay then setTenant s' r.tenant { t with level := t.level - chargeOf s r } else s'
        let s' := updReq s' i (boundReq s' (s'.srv.curStep + 1) ps)
        some (writeAttrList (writeStore s' i) i)

/-- Slots of a kind filled in candidate order; a candidate that cannot be bound is skipped. -/
def bindKind (kind cap : Nat) : List Nat → Nat → State → State
  | [], _, s => s
  | i :: l, n, s =>
    if cap ≤ n then s
    else match bindOne s none kind n i with
      | some s => bindKind kind cap l (n + 1) s
      | none => bindKind kind cap l n s

/-! ### When nothing is bound (R249, R324, R335) -/

/-- The proof store has no entry that the engine may write. -/
def storeFull (s : State) : Bool :=
  s.proofs.store.any (fun x => !x.placed) || !storeFree s s.proofs.count

/-- Entries of the holding buffer in use. -/
def heldEntries (s : State) : Nat := (s.proofs.held.map recEntries).foldl (· + ·) 0

/-- The engine binds nothing. -/
def bindsNothing (s : State) : Bool :=
  s.srv.books.barrier || !proofRoom s || !recordRoom s 1 || storeFull s || decide (2048 < heldEntries s) ||
  s.proofs.pairState == 3

/-- A step with every slot masked. -/
def maskStep (s : State) : State :=
  setBooks s { s.srv.books with bound := [], variant := maskedVariant s.prog.table }

/-- Admission at tick `t` (step 9 of R247). -/
def admitAll (t : Nat) (s : State) : State :=
  let l := candidates s t
  let v := chooseVariant s l
  let x := nth {} s.prog.table.shapes v
  let of := fun kind => l.filter fun i => kindOf (reqAt s i) == some kind
  let ds := of 0
  let cs := of 1
  let as_ := of 2
  let s := setBooks s { s.srv.books with bound := [], variant := v }
  let s := bindKind 2 x.a as_ 0 (bindKind 1 (chunksOf s x) cs 0 (bindKind 0 x.d ds 0 s))
  if s.srv.books.bound = [] then maskStep s else s

/-! ### The manifest (R250, R251) -/

def pad64 (bs : List Byte) : List Byte := bs ++ List.replicate (round64 bs.length - bs.length) 0

def boundKind (b : Books) (kind : Nat) : List Bound := b.bound.filter fun x => x.kind == kind

/-- The header. -/
def manifestHeader (s : State) (k : Nat) (x : Shape) : List Byte :=
  let b := s.srv.books
  dwBytes (0x01 + b.variant % 256 * 2 ^ 8 + x.d * 2 ^ 16 + x.p * 2 ^ 32 + x.a * 2 ^ 48) ++ dwBytes k ++
  dwBytes ((boundKind b 0).length + (boundKind b 1).length * 2 ^ 16 + (boundKind b 2).length * 2 ^ 32) ++
  List.replicate 232 0

/-- The mask of a kind's slots; a chunk slot has a bit for each of its tokens. -/
def kindMask (s : State) (kind : Nat) : Nat :=
  (boundKind s.srv.books kind).foldl (fun n (b : Bound) =>
    n + if kind = 1 then (2 ^ b.len - 1) * 2 ^ (b.slot * chunkTokens s) else 2 ^ b.slot) 0

/-- The first three words of a slot's record, as this device decides them. -/
def ownRec (s : State) (b : Bound) : PairRec :=
  let r := reqAt s b.req
  let w0 := match b.kind with
    | 0 => (r.output.getLast?.getD 0).toNat + b.pos * 2 ^ 32
    | 1 => b.pos + b.len * 2 ^ 32
    | _ => contextLen r + b.pos * 2 ^ 32
  let w1 := r.store + r.slot % 8 * 2 ^ 48 + (r.adapter.getD 0) * 2 ^ 51 + b2n r.adapter.isSome * 2 ^ 61
  { w0 := BitVec.ofNat 64 w0, w1 := BitVec.ofNat 64 w1, w2 := r.seed }

/-- A record: a follower's says what its leader's says, but for the places in memory, which are its own
(R251, R333). -/
def slotRecord (s : State) (b : Bound) : List Byte :=
  let r := reqAt s b.req
  let p := b.lead.getD (ownRec s b)
  let at_ := match b.kind with
    | 0 => 0
    | 1 => tokenAddr s r b.pos
    | _ => tokenAddr s r (contextLen r)
  dwBytes p.w0.toNat ++ dwBytes (r.store % 2 ^ 48 + p.w1.toNat / 2 ^ 48 * 2 ^ 48) ++ dwBytes p.w2.toNat ++
  dwBytes (at_ + b.req % 2 ^ 16 * 2 ^ 48)

/-- The record of an unbound slot. -/
def emptyRecord (s : State) : List Byte := dwBytes 0 ++ dwBytes (nullAddr s % 2 ^ 48) ++ dwBytes 0 ++ dwBytes 0

/-- The records of a kind's `n` slots. -/
def kindRecords (s : State) (kind n : Nat) : List Byte :=
  (List.range n).flatMap fun i => match (boundKind s.srv.books kind).find? fun b => b.slot == i with
    | some b => slotRecord s b
    | none => emptyRecord s

/-- The manifest of step `k` for the bindings decided. -/
def manifestOf (s : State) (k : Nat) : List Byte :=
  let x := stepShape s
  manifestHeader s k x ++ pad64 (leBytes ((x.d + 63) / 64 * 8) (kindMask s 0)) ++
  pad64 (leBytes ((x.p + 63) / 64 * 8) (kindMask s 1)) ++ pad64 (leBytes 8 (kindMask s 2)) ++
  pad64 (kindRecords s 0 x.d) ++ pad64 (kindRecords s 1 (chunksOf s x)) ++ pad64 (kindRecords s 2 x.a)

/-- The largest replica set among the bound slots. -/
def boundSetSize (s : State) : Nat :=
  ((s.prog.binds.filter fun r => r.kind == 0).map fun r => splitCount (slotAt s r.slot).split).foldl max 1

/-- The manifest written, and sent to the other members of a replica set (R308). -/
def writeManifest (s : State) (k : Nat) : State :=
  let m := manifestOf s k
  let s := ddrWrite s (manifestAddr s k) m
  let n := boundSetSize s
  if n ≤ 1 then s
  else ((setMembers s.fab.id n).filter (· != s.fab.id)).foldl (fun s d =>
    sendMgmt s { dst := d, mtype := mtManifest, a := k, bytes := m }) s

/-! ### A replica set's other members (R308) -/

/-- The manifest of step `k` has come. -/
def manifestHere (s : State) (k : Nat) : Bool := memNat s.memory.ddr (manifestAddr s k + 8) 8 == k

/-- The variant that member 0 chose. -/
def followManifest (s : State) (k : Nat) : State :=
  setBooks s { s.srv.books with bound := [], variant := memNat s.memory.ddr (manifestAddr s k + 1) 1 }

/-! ### The partner of a pair (R333) -/

/-- This device follows a leading partner. -/
def pairFollows (s : State) : Bool := s.proofs.pairState == 1 && bit s.fab.id 23

/-- The request of a TAG. -/
def reqOfTag (s : State) (tag : DWord) : Option Nat :=
  (s.srv.books.reqs.find? fun p => p.2.tag == tag && p.2.state != .free && p.2.state != .intake).map (·.1)

/-- The partner's bindings of step `k`. -/
def bindingsFor (s : State) (k : Nat) : Option PairMsg :=
  s.proofs.bindings.find? fun m => match m with
    | .bindings n _ _ _ _ => n == k
    | .head _ _ => false

def msgSlots : PairMsg → List PairSlot
  | .bindings _ _ l _ _ => l
  | .head _ _ => []
def msgEnds : PairMsg → List (DWord × Nat)
  | .bindings _ _ _ l _ => l
  | .head _ _ => []
def msgSwitches : PairMsg → List DWord
  | .bindings _ _ _ _ l => l
  | .head _ _ => []
def msgVariant : PairMsg → Nat
  | .bindings _ v _ _ _ => v
  | .head _ _ => 0

/-- Every submission that the bindings name has been received. -/
def bindingsMatch (s : State) (m : PairMsg) : Bool :=
  ((msgSlots m).all fun p => (reqOfTag s p.tag).isSome) && (msgEnds m).all fun p => (reqOfTag s p.1).isSome

/-- Ends that the partner decided. -/
def followEnds (s : State) (m : PairMsg) : State :=
  (msgEnds m).foldl (fun s p =>
    match reqOfTag s p.1 with
    | some i => if unended (reqAt s i) then endReq s i (heldStatus p.2) else s
    | none => s) s

/-- Cancels of a follower: settled as the partner's ends settle their requests; of several of one request the
first is the one that ended it (R276). -/
def followCancels (s : State) : State :=
  let cs := s.srv.cancels
  cs.foldl (fun s (l : Later) =>
    let r := reqAt s l.idx
    let first := !(curDecision s).later.any fun x => x.kind == 2 && x.idx == l.idx && x.status == stOK
    if unended r && r.tag == l.tag then { s with srv := { s.srv with cancels := s.srv.cancels ++ [l] } }
    else if r.state = .ending ∧ r.tag = l.tag ∧ r.status = stCancelled ∧ first then addLater s { l with status := stOK }
    else addLater s { l with status := stAlready }) { s with srv := { s.srv with cancels := [] } }

/-- LATE under DELIVER_LATE. -/
def followLate (t : Nat) (s : State) (i : Nat) : State :=
  let r := reqAt s i
  if r.state = .free ∨ r.noProof ∨ r.deadline = 0 ∨ t < r.deadline ∨ r.expire then s
  else markLate s i

/-- Slots bound as the partner bound them; none where one cannot be bound here. -/
def bindSlots : List PairSlot → State → Option State
  | [], s => some s
  | p :: ps, s => match reqOfTag s p.tag with
    | some i => match bindOne s (some p.rec_) p.kind p.slot i with
      | some s => bindSlots ps s
      | none => none
    | none => none

/-- The bindings of the partner taken; none where they cannot be. -/
def followBind (s : State) (m : PairMsg) : Option State :=
  match bindSlots (msgSlots m) (setBooks s { s.srv.books with bound := [], variant := msgVariant m }) with
  | some s => some { s with proofs := { s.proofs with
      bindings := s.proofs.bindings.filter (· != m), bindSince := none } }
  | none => none

/-- What the leading partner sends. -/
def sendBindings (s : State) (k : Nat) (switched : List Nat) : State :=
  if s.proofs.pairState = 1 ∧ !bit s.fab.id 23 then
    let tagOf := fun i => (reqAt s i).tag
    let slots := s.srv.books.bound.map fun b => ({ tag := tagOf b.req, kind := b.kind, slot := b.slot, rec_ := ownRec s b } : PairSlot)
    let ends := ((curDecision s).outs.filter fun o => !o.gone).filterMap fun o => o.done.map fun st => (tagOf o.req, st)
    sendMgmt s { dst := s.fab.id ^^^ 2 ^ 23, mtype := mtPair, session := 1, a := k
                 pair := some (.bindings k s.srv.books.variant slots ends (switched.map tagOf)) }
  else s

/-! ### The boundary (R246 to R249) -/

/-- J. -/
def journalDepth (s : State) : Nat := s.srv.depth + 1

/-- The boundary's work can run: the commit stroke's cores have ended, the step before has committed and
step s − J is journaled. -/
def boundaryReady (s : State) : Bool :=
  s.prog.step && s.tick.launched && s.tick.rimBusy && allAtEnd s && s.srv.decision.isNone &&
  decide (s.srv.curStep ≤ s.srv.jrnDone + journalDepth s)

/-- Step 10 ends: the manifest stands, and the stroke may end (R246). -/
def endBoundary (s : State) : State := settleStroke { s with tick := { s.tick with rimBusy := false } }

/-- The boundary opened: what it decides can be undone. -/
def openBoundary (s : State) : State :=
  { s with srv := { s.srv with
      saved := some s.srv.books
      decision := some { step := s.srv.curStep, stroke := s.tick.stroke, variant := s.srv.books.variant } } }

/-- Steps 7 and 8 after the ends of requests. -/
def applyChanges (t : Nat) (ok : Req → Bool) (s : State) : State :=
  let s := applySwap (applyRetires (liveAdapters s))
  let s := (openReqs s).foldl (applySwitch ok) s
  refillAll t (applyBudgets t s)

/-- A boundary that this device decides. -/
def ownBoundary (s : State) : State :=
  let t := now s
  let k := s.srv.curStep + 1
  let s := applyDeadlines t (applyCancels (settleResults (openBoundary s)))
  let sw := switching s
  let s := applyChanges t (fun _ => true) s
  let s := (openReqs s).foldl rejectOne s
  let s := if bindsNothing s then maskStep s else admitAll t s
  endBoundary (sendBindings (writeManifest s k) k sw)

/-- The boundary of a follower in a pair; none where a binding cannot be followed. -/
def pairBoundary (s : State) (m : PairMsg) : Option State :=
  let t := now s
  let k := s.srv.curStep + 1
  let s := followCancels (followEnds (settleResults (openBoundary s)) m)
  let s := (openReqs s).foldl (followLate t) s
  let s := applyChanges t (fun r => (msgSwitches m).contains r.tag) s
  (followBind s m).map fun s => endBoundary (writeManifest s k)

/-- The boundary of a replica set's other member. -/
def replicaBoundary (s : State) : State :=
  let t := now s
  let k := s.srv.curStep + 1
  let s := applyDeadlines t (applyCancels (settleResults (openBoundary s)))
  endBoundary (followManifest (applyChanges t (fun _ => true) s) k)

/-- BOUNDARY_START: a follower waits for what it follows. -/
def startBoundary (s : State) : State :=
  let k := s.srv.curStep + 1
  if !boundaryReady s then s
  else if resultsBad s then stopOwn (scoreResults s) fcUncorr caCore
  else if (openReqs s).any (reqBad s) || (s.srv.books.tenants.map (·.1)).any (tenantBad s) then
    stopOwn s fcUncorr caCore
  else if follows s then (if manifestHere s k then replicaBoundary s else s)
  else if pairFollows s then
    match bindingsFor s k with
    | some m =>
      match (if bindingsMatch s m then pairBoundary s m else none) with
      | some s => s
      | none => { s with proofs := { s.proofs with bindSince := some (s.proofs.bindSince.getD (now s)) } }
    | none => s
  else ownBoundary s

end Sys2Proof.Machine
end

