-- ==== Sys2Proof/Machine/CommitOps.lean ====
section
/-! DEFINITION. The commit of a stroke: a step's tokens, scores, proofs and chain record, a batch program's completion, and the journal (06 R190; 08 R263, R270 to R275; 09 R292, R293, R302; 10 R319 to R327, R512; 12 R398, R406). -/

namespace Sys2Proof.Machine

open Sys2Proof

/-! ### Tokens (R270) -/

/-- The times and misses of a token committed at tick `t`, with the FLAGS of its TOKENS. -/
def stampToken (t : Nat) (r : Req) : Req × Nat :=
  let first := r.firstTok == 0
  let ttft := first && r.ttft != 0 && decide (r.ttft < t - r.arrival)
  let tbt := !first && r.tbt != 0 && decide (r.tbt < t - r.lastTok)
  let r := { r with
    firstTok := if first then t else r.firstTok, lastTok := t, ttftMissed := r.ttftMissed || ttft
    tbtMisses := if tbt then satInc 16 r.tbtMisses else r.tbtMisses }
  (r, b2n r.late + 2 * b2n tbt + 4 * b2n first + 8 * b2n r.ttftMissed)

/-- What a token's commit counts for its tenant and the device. -/
def countToken (s : State) (tenant : Nat) (ttft tbt : Bool) : State :=
  let x := tenantAt s tenant
  let s := setTenant s tenant { x with
    served := (x.served + 1) % 2 ^ 64
    ttftMisses := if ttft then satInc 32 x.ttftMisses else x.ttftMisses
    tbtMisses := if tbt then satInc 32 x.tbtMisses else x.tbtMisses }
  { s with srv := { s.srv with
      ttftMiss := if ttft then satInc 16 s.srv.ttftMiss else s.srv.ttftMiss
      tbtMiss := if tbt then satInc 16 s.srv.tbtMiss else s.srv.tbtMiss } }

/-- One token delivered at tick `t`. -/
def commitToken (s : State) (t : Nat) (o : Outcome) : State × Outcome :=
  let x := stampToken t (reqAt s o.req)
  let s := setReq s o.req x.1
  (countToken s x.1.tenant (bit x.2 2 && bit x.2 3) (bit x.2 1), { o with flags := x.2 })

/-! ### Scores (R272) -/

/-- The scores copied to the host, once the last part commits: a request cancelled before has none delivered
(R272, R276), nor has one whose function was disabled (13 R437). -/
def deliverScores (s : State) (o : Outcome) : State :=
  let r := reqAt s o.req
  if o.kind = 2 ∧ o.done = some stOK ∧ !fnGone s r then hostWrite s r.scoresAt r.scores.flatten else s

/-- An outcome of step `n` committed at tick `t`. -/
def commitOut (n t : Nat) (s : State) (o : Outcome) : State × Outcome :=
  let r := reqAt s o.req
  if o.silent ∨ r.state = .free then (s, o)
  else
    let s := if r.firstStep = 0 ∨ o.kind = 3 then s else updReq s o.req fun r => { r with lastStep := n }
    let s := deliverScores s o
    if o.token.isSome then commitToken s t o else (s, o)

def commitOuts (n t : Nat) : List Outcome → State → State × List Outcome
  | [], s => (s, [])
  | o :: l, s =>
    let x := commitOut n t s o
    let y := commitOuts n t l x.1
    (y.1, x.2 :: y.2)

/-! ### Proofs of a step (R319, R321, R325) -/

/-- OUTPUT_DIGEST. -/
def outputDigest (r : Req) (explained : Bool) : Digest :=
  if explained then sha256 (digestBytes r.outState ++ digestBytes (sha256 r.scores.flatten)) else r.outState

/-- The proof of a request that ended with step `n`. -/
def proofOf (s : State) (n : Nat) (r : Req) : Proof :=
  let explained := r.explain && r.status == stOK
  { status := r.status, grid := s.prog.grid, explain := explained, late := r.late
    devices := splitCount (slotAt s r.slotAt).split, swapCount := r.swapCount, tag := r.tag, seed := r.seed
    first := r.firstStep, last := n, slot := r.slotAt, adapter := r.adapter.isSome, device := s.fab.id
    tokens := r.output.length, image := s.prog.digest, root := r.root, adDigest := reqAdapterDigest s r
    prompt := r.promptDig, output := outputDigest r explained, swaps := r.swaps }

/-- A proof put in its place by the hash of its neutral form (R325), with what belongs to it. -/
def insertProof (x : Proof × Nat × Asker) : List (Proof × Nat × Asker) → List (Proof × Nat × Asker)
  | [] => [x]
  | y :: l => if orderHash x.1 < orderHash y.1 then x :: y :: l else y :: insertProof x l

/-- The outcome ends a request that has a proof. -/
def endsProved (s : State) (o : Outcome) : Bool :=
  !o.silent && o.done.isSome && (reqAt s o.req).firstStep != 0

/-- The proofs of step `n`, in the order of their LEAF. -/
def stepProofs (s : State) (n : Nat) (outs : List Outcome) : List (Proof × Nat × Asker) :=
  let ps := (outs.filter (endsProved s)).map fun o =>
    let r := reqAt s o.req
    (proofOf s n r, o.req, askerOf r)
  (ps.foldr insertProof []).zipIdx.map fun x => ({ x.1.1 with leaf := x.2 }, x.1.2)

/-! ### Full blocks (R263) -/

/-- The KV of a request is all of its model slot's present weights. -/
def kvPure (r : Req) : Bool :=
  match r.swaps.getLast? with
  | some w => w.getLsbD 32
  | none => true

def commitBlocks (n : Nat) (s : State) : State :=
  s.srv.partial_.foldl (fun s p =>
    let r := reqAt s p.1
    if r.state = .free ∨ r.prefilled = 0 ∨ !kvPure r then s else commitBlock s n p.1 p.2) s

/-! ### What waited for the step (R264, R275, R302) -/

/-- Retirements and budget changes answered. -/
def answerLater (s : State) (l : Later) : State :=
  if l.kind = 2 then s else answerStatus s l.who l.status

/-- What the decision says of request `i` is written nowhere but to the journal. -/
def muteReq (i : Nat) (d : Decision) : Decision :=
  { d with outs := d.outs.map fun o => if o.req = i then { o with silent := true, gone := false } else o }

/-- A request whose entry returns to FREE while steps that name it are under way. -/
def purgeReq (s : State) (i : Nat) : State :=
  let s := updBooks s fun b => { b with bound := b.bound.filter fun x => x.req != i }
  { s with
    srv := { s.srv with
      decision := s.srv.decision.map (muteReq i), journal := s.srv.journal.map (muteReq i)
      partial_ := s.srv.partial_.filter fun p => p.1 != i }
    proofs := { s.proofs with gated := s.proofs.gated.map (muteReq i) } }

/-- Requests of disabled functions return their entries. -/
def freeSilent (s : State) (o : Outcome) : State :=
  if o.gone ∧ (reqAt s o.req).state ≠ .free then purgeReq (releaseReq s o.req) o.req else s

/-- The swap's completion and the start of a swap's writing, at the commit. -/
def commitSwap (s : State) (n : Nat) : State :=
  let s := if s.load.fell = some n then finishSwap s else s
  if (s.load.queue.head?.map (·.kind)) = some 2 then loadNext s else s

/-! ### The commit of a step -/

/-- Steps between signed heads. -/
def signInterval (s : State) : Nat := s.proofs.signEvery + 1

/-- Step `d.step` commits at tick `t`. -/
def commitStep (s : State) (d : Decision) (t : Nat) : State :=
  let n := d.step
  let x := commitOuts n t d.outs s
  let s := commitBlocks n x.1
  let ps := stepProofs s n x.2
  let d := { d with outs := x.2, commit := t, proofs := ps.map fun p => p.2.1 }
  let s := { s with srv := { s.srv with
    step := n, saved := none, decision := none, partial_ := [], journal := s.srv.journal ++ [d] } }
  let s := placeProofs (addProofs s ps)
  let s := chainRecord s false n (ps.map (·.1))
  let s := if n % signInterval s = 0 then dueHead s n else s
  let s := d.later.foldl answerLater s
  let s := d.outs.foldl freeSilent s
  let s := d.retired.foldl settleAdapter s
  flushRings (commitSwap s n)

/-! ### Batch programs (R224, R321, R327, R512; 12 R406) -/

/-- Strokes of a table. -/
def strokeCount (l : List StrokeEnt) : Nat := l.foldl (fun n e => n + e.rpt + 1) 0

/-- The entry of stroke `k`, counted from 0. -/
def entryOf : List StrokeEnt → Nat → StrokeEnt
  | [], _ => {}
  | e :: l, k => if k ≤ e.rpt then e else entryOf l (k - e.rpt - 1)

/-- The lowest model slot that the program binds. -/
def batchSlot (s : State) : Option Nat := least (slotBound s) 8

/-- The proof of a batch program of `n` strokes with output root `out`. -/
def batchProof (s : State) (n : Nat) (out : Digest) : Proof :=
  { status := stOK, grid := s.prog.grid, batch := true, devices := s.prog.devices, seed := s.prog.seed
    first := 1, last := n, slot := (batchSlot s).getD 0, device := s.fab.id, image := s.prog.digest
    root := match batchSlot s with
      | some m => (slotAt s m).root
      | none => 0
    prompt := s.prog.inRoot, output := out }

/-- A batch program has committed its last stroke `n`. -/
def completeBatch (s : State) (n : Nat) : State :=
  let done := fun (s : State) status =>
    settleAbort (endRun s { status := status, strokes := n, gtc := now s, step := n } true) stAlready
  if !formsBatchProof s then done s stOK
  else
    let s' := scoreRead s s.prog.args.outAddr s.prog.args.outBytes
    match rangeRoot s s.prog.args.outAddr s.prog.args.outBytes with
    | none => done s' stPoisoned
    | some out =>
      let p := batchProof s' n out
      let s := placeProofs (addProofs s' [(p, 0, s.prog.asker)])
      flushRings (done (chainRecord s true n [p]) stOK)

/-- Stroke `k` of a batch program committed. -/
def commitBatch (s : State) (k : Nat) : State :=
  let s := if (entryOf s.prog.strokes (k - 1)).checkpoint then
      postEvent { s with prog := { s.prog with ckpt := k } } evCheckpoint k
    else s
  if k = strokeCount s.prog.strokes then completeBatch s k else s

/-- STROKE_COMMIT: the oldest stroke whose successor's launch is known (R190). -/
def commitStroke (s : State) : State :=
  match s.tick.commits with
  | (k, l) :: rest =>
    if l = 0 ∨ !s.tick.launched then s
    else
      let t := l + s.tick.lead
      let s := advance s t
      let s := { s with tick := { s.tick with commits := rest }, prog := { s.prog with committed := k } }
      if !s.prog.step then commitBatch s k
      else match s.srv.decision with
        | some d => if d.stroke = k then commitStep s d t else s
        | none => s
  | [] => s

/-! ### The journal and what follows it (R273 to R275, R334, R398) -/

/-- A journal entry. -/
def journalEntry (o : Outcome) : List Byte :=
  dwBytes (o.req % 2 ^ 16 + min o.kind 3 * 2 ^ 16 + (o.done.getD 0xFF) % 256 * 2 ^ 24 +
    (o.token.getD 0).toNat * 2 ^ 32) ++ dwBytes o.pos

/-- A journal record. -/
def journalRecord (d : Decision) : List Byte :=
  let es := d.outs
  dwBytes (0x01 + d.variant % 256 * 2 ^ 8 + es.length % 2 ^ 32 * 2 ^ 16) ++ dwBytes d.step ++ dwBytes d.commit ++
  List.replicate 40 0 ++ es.flatMap journalEntry

/-- Bytes written to a circular buffer of `n` bytes at `base` from position `pos` on. -/
def ringWrite (s : State) (base n pos : Nat) (bs : List Byte) : State :=
  if n = 0 then s
  else
    let at_ := pos % n
    let first := bs.take (n - at_)
    hostWrite (hostWrite s (base + at_) first) base ((bs.drop (n - at_)).take n)

/-- REQUEST_DONE for a request that the decision ends, whose entry returns to FREE. -/
def deliverEnd (d : Decision) (s : State) (o : Outcome) : State :=
  match o.done with
  | some st =>
    let r := reqAt s o.req
    if o.silent ∨ r.state = .free then s
    else endEntry s o.req (requestDone r o.req st (d.proofs.contains o.req))
  | none => s

/-- TOKENS for a token of the decision. -/
def deliverToken (d : Decision) (s : State) (o : Outcome) : State :=
  if o.silent ∨ o.token.isNone ∨ (reqAt s o.req).state = .free then s
  else
    let r := reqAt s o.req
    answer s (askerOf r) (tokensWords r o.req d.step d.commit o)

/-- The completions of a journaled step. -/
def deliverStep (s : State) (d : Decision) : State :=
  let s := d.outs.foldl (deliverToken d) s
  let s := d.outs.foldl (deliverEnd d) s
  d.later.foldl (fun s l => if l.kind = 2 then answerStatus s l.who l.status else s) s

/-! ### A step on which the partners differ (R335) -/

/-- REQUEST_DONE DIVERGENCE for a request with a token or an end in the step. -/
def deliverDiverged (d : Decision) (s : State) (o : Outcome) : State :=
  let r := reqAt s o.req
  if o.silent ∨ (o.token.isNone ∧ o.done.isNone) ∨ r.state = .free then s
  else
    purgeReq (endEntry s o.req (requestDone r o.req stDivergence (d.proofs.contains o.req))) o.req

/-- The completions of a step on which the partners differ, under PAIR_GATE. -/
def divergeStep (s : State) (d : Decision) : State :=
  let s := d.outs.foldl (deliverDiverged d) s
  d.later.foldl (fun s l => if l.kind = 2 then answerStatus s l.who l.status else s) s

/-- What is written for a step whose completions nothing holds back any more. -/
def finishStep (s : State) (d : Decision) : State :=
  if s.proofs.pairGate ∧ s.proofs.pairState = 3 ∧ d.step = s.proofs.divStep then divergeStep s d
  else deliverStep s d

/-- After an abort, the requests left end once nothing is left to journal or to release. -/
def settleCancelAll (s : State) : State :=
  if s.srv.cancelAll && s.srv.journal.isEmpty && s.proofs.gated.isEmpty then cancelRemaining s else s

/-- Steps whose heads have matched, or that no comparison holds back, are released. -/
def releaseGated (s : State) : State :=
  let g := s.proofs.gated
  let s := g.foldl finishStep { s with proofs := { s.proofs with gated := [] } }
  settleCancelAll (proofReadies s)

/-- The step's completions wait for its heads to match (R334). -/
def gatesStep (s : State) (n : Nat) : Bool :=
  s.proofs.pairGate && s.proofs.pairState == 1 && decide (s.proofs.matched < n)

/-- JOURNAL_WRITE_COMPLETE. -/
def journalWritten (s : State) : State :=
  match s.srv.journal with
  | d :: rest =>
    let bs := journalRecord d
    let s := ringWrite s (s.srv.jrnBase * 4096) (s.srv.jrnSize * 4096) s.srv.jrnPos bs
    let s := { s with srv := { s.srv with journal := rest, jrnDone := d.step, jrnPos := s.srv.jrnPos + bs.length } }
    if gatesStep s d.step then { s with proofs := { s.proofs with gated := s.proofs.gated ++ [d] } }
    else settleCancelAll (proofReadies (finishStep s d))
  | [] => s

end Sys2Proof.Machine
end

