-- ==== Sys2Proof/Machine/AreaReads.lean ====
section
/-! DEFINITION. The serving engine's own reads of its engine area: an uncorrectable word stops the partition (05 R151, R157; 08 R235, R237, R250, R255, R261, R262; 13 R430). -/

namespace Sys2Proof.Machine

open Sys2Proof

/-! ### Where the parts of the engine area lie (table of R237)

The manual gives the parts and their sizes, and not which words an operation reads. DESIGN CHOICE (log 96): the
allocator's words of the pages it moves, the sets or nodes of the index that it searches or changes, the token
stores of the requests whose entries it changes, and the queue entries that it takes out. -/

def allocatorAddr (s : State) : Nat := areaAddr s + 2 * manifestSize s.prog.table
def indexAddr (s : State) : Nat := allocatorAddr s + 8 * pageCount s
def queueAddr (s : State) (f : Nat) : Nat := indexAddr s + 2 ^ 27 + f * (64 * queueEntries)

/-- Bytes of a set of the HASH index: four entries. -/
def setBytes : Nat := 128

/-- A span of the area: first byte and length. -/
abbrev AreaSpan := Nat × Nat

/-! ### What an operation reads, from the engine before and after it -/

/-- What the allocator's word of a page says. -/
def pageState (b : Books) (p : Nat) : Nat × Bool × Bool := (look 0 b.refs p, b.taken.contains p, b.fallow.contains p)

/-- The pages that differ. -/
def movedPages (b b' : Books) : List Nat :=
  ((b.refs.map (·.1) ++ b'.refs.map (·.1) ++ b.taken ++ b'.taken).foldl (fun l p => insertNat p l) []).filter
    fun p => pageState b p != pageState b' p

/-- Where an entry of the prefix index stands. -/
def entrySpan (s : State) (e : PfxEntry) : AreaSpan :=
  if s.srv.pfxMode = 1 then (indexAddr s + setBytes * hashSet e, setBytes) else (e.at_, nodeBytes s)

/-- The entries that differ; a new node is only written. -/
def movedEntries (s s' : State) : List PfxEntry :=
  let b := s.srv.books.pfx
  let b' := s'.srv.books.pfx
  b.filter (fun e => !b'.contains e) ++ if s.srv.pfxMode = 1 then b'.filter (fun e => !b.contains e) else []

/-- The page table and the tokens of a request. -/
def storeSpan_ (s : State) (r : Req) : AreaSpan := (r.store, tableBytes s r + 4 * contextLen r)

/-- The requests with a token store whose entries differ. -/
def movedStores (s s' : State) : List AreaSpan :=
  (s.srv.books.reqs.filter fun p => p.2.storeLen != 0 && reqAt s' p.1 != reqAt s p.1).map fun p => storeSpan_ s p.2

/-- The allocator's words and the index's sets and nodes, which the operation writes anew. -/
def bookSpans (s s' : State) : List AreaSpan :=
  (movedPages s.srv.books s'.srv.books).map (fun p => (allocatorAddr s + 8 * p, 8)) ++
    (movedEntries s s').map (entrySpan s)

/-- The sets or nodes that a lookup of a prompt's blocks reads: up to the first miss. -/
def lookupSpans (s : State) (r : Req) : List AreaSpan :=
  let es := blockEntries s r
  let n := (matchBlocks s.srv.books.pfx es).length
  if s.srv.pfxMode = 1 then (es.take (n + 1)).map (entrySpan s)
  else (s.srv.books.pfx.filter fun x => (es.take n).any (sameBlock x)).map (entrySpan s)

/-- The queue entries of held completions that function `f` holds no more. -/
def drainedSpans (s s' : State) (f : Nat) : List AreaSpan :=
  ((fnAt s f).held.filter fun h => !(fnAt s' f).held.contains h).map fun h => (queueAddr s f + 64 * h.at_, 64)

/-! ### The reads -/

/-- The words in error of a list of spans. -/
def spanHits (m : Mem) (l : List AreaSpan) : List (Nat × Bool) :=
  l.flatMap fun p => (correctedWords m p.1 p.2).map (fun w => (8 * w, false)) ++
    (badWords m p.1 p.2).map fun w => (8 * w, true)

/-- Spans written anew: their words have fresh codes. -/
def freshSpans (s : State) (l : List AreaSpan) : State :=
  setDdr s (l.foldl (fun (m : Mem) p => { m with flips := dropRange m.flips (p.1 / 8) ((p.1 + p.2) / 8) }) s.memory.ddr)

/-- An operation of the engine from `s` to `s'` that reads the spans `l`: their words in error raise the scores of
their channels, and a live program with an uncorrectable one stops instead (R157, R235). -/
def readArea (s s' : State) (l : List AreaSpan) : State :=
  let hits := spanHits s.memory.ddr l
  if hits.any (·.2) && progLive s then stopOwn (noteErrors s s.memory hits) fcUncorr caCore
  else if hits = [] then s' else noteErrors s' s'.memory hits

/-- An operation of the engine, with what it reads of its area; `more`: spans that it reads besides. -/
def engineWork (s s' : State) (more : List AreaSpan) : State :=
  let b := bookSpans s s'
  afterReads s (readArea s (freshSpans s' b) (more ++ b ++ movedStores s s'))

/-- An operation of a program that it has not stopped. -/
def engineStep (s s' : State) (more : List AreaSpan) : State :=
  if progLive s && !progLive s' then afterReads s s' else engineWork s s' more

end Sys2Proof.Machine
end

