-- ==== Sys2Proof/Machine/HostOps.lean ====
section
/-! DEFINITION. Functions enabled, disabled and reset, doorbells, and the host-shared window (13 R409 to R418, R430 to R440). -/

namespace Sys2Proof.Machine

open Sys2Proof

/-! ### The ring context table (R414, R415) -/

/-- Word `j` of entry `i` of the table. -/
def ctxWord (t : Fetch) (i j : Nat) : Nat := (nth 0 t.words (4 * i + j)).toNat

def ctxValid (t : Fetch) (i : Nat) : Bool := bit (ctxWord t i 1) 5

/-- Vectors of a function. -/
def vectorsOf (f : Nat) : Nat := if f = 0 then 2048 else 64

/-- An entry whose VALID is 1 passes its checks. -/
def ctxEntryOk (f : Nat) (t : Fetch) (i : Nat) : Bool :=
  let w1 := ctxWord t i 1
  ctxWord t i 0 % 4096 == 0 && decide (6 ≤ bits w1 4 0 ∧ bits w1 4 0 ≤ 16) &&
  bits w1 15 6 == 0 && bits w1 63 56 == 0 && ctxWord t i 2 / 2 ^ 32 == 0 && ctxWord t i 3 == 0 &&
  (decide (i < 64) || decide (bits w1 26 16 < vectorsOf f))

/-- The whole table passes. -/
def ctxOk (f : Nat) (t : Fetch) : Bool :=
  ctxValid t 128 && (List.range 129).all (fun i => !ctxValid t i || ctxEntryOk f t i) &&
  (List.range 64).all fun r => !ctxValid t (64 + r) || ctxValid t r

/-- The device's copy of an entry. A submission ring begins at the CONSUMED of the table; its tail is read
with the first doorbell. Its doorbell line is held only with CXL.cache (R410, R418). -/
def ringOf (cache : Bool) (t : Fetch) (i : Nat) : Ring :=
  let w1 := ctxWord t i 1
  let c := if i < 64 then ctxWord t i 2 % 2 ^ 32 else 0
  { valid := true, base := ctxWord t i 0, log2 := bits w1 4 0, vector := bits w1 26 16, irq := bit w1 27
    coalCount := bits w1 35 28, coalTicks := bits w1 55 36, consumed := c, tail := c, shared := cache }

def ringsOf (cache : Bool) (t : Fetch) : FMap Ring :=
  ((List.range 129).filter (ctxValid t)).map fun i => (i, ringOf cache t i)

/-! ### Enable (R415, R436, R437) -/

/-- The function may be enabled. -/
def mayEnable (f : Nat) (p : FnPci) : Bool := !p.d3hot && p.busMaster && (f == 0 || p.present)

/-- FAULT set with its cause; the function stays disabled, and ENABLE reads 0. -/
def enableFault (s : State) (f cause : Nat) : State :=
  updFn s f fun x => { x with enable := false, fault := true, cause := cause }

/-- The cause of a failed read of host memory. -/
def readCause (x : ReadStatus) : Nat := if x = .poison then 4 else 2

/-- The function runs; a FUNCTION_RESET that waits for it is posted (R431). -/
def runFunction (s : State) (f : Nat) (t : Fetch) : State :=
  let due := (fnAt s f).resetEv
  let s := updFn s f fun x => { x with enable := true, state := 1, rings := ringsOf s.hif.link.cache t, resetEv := false }
  if due then postTo s f (eventWords evFnReset f) else s

/-- A write of ENABLE 1. -/
def enableFn (s : State) (f : Nat) (p : FnPci) (t : Fetch) : State :=
  if f < 64 ∧ (fnAt s f).state = 0 ∧ s.die.d48 then
    let s := updFn s f fun x => { x with pci := p }
    if !mayEnable f p then updFn s f fun x => { x with enable := false }
    else if t.status ≠ .ok then enableFault s f (readCause t.status)
    else if !ctxOk f t then enableFault s f 1
    else runFunction s f t
  else s

/-! ### Disable (R436 to R438) -/

/-- The descriptors of a function that wait on the load path are dropped (R437). -/
def dropWaiting (s : State) (f : Nat) : State :=
  let l := s.load
  let mine := fun (o : LoadOp) => o.answer && o.who.fn == f
  let curGone := l.waiting && (l.cur.map mine).getD false
  let waits := fun (o : LoadOp) => !l.writing && (slotAt s o.slot).state != .swapping
  let swapGone := (l.swap.map fun o => mine o && waits o).getD false
  setLoad s { l with
    queue := l.queue.filter fun o => !mine o || (o.kind == 2 && !swapGone)
    swap := if swapGone then none else l.swap
    cur := if curGone then none else l.cur
    waiting := l.waiting && !curGone }

/-- The interrupts of a function that still pend are not sent (R437). -/
def dropPending (s : State) (f : Nat) : State :=
  let drop := fun (p : Nat × Msix) => (p.1, { p.2 with pend := p.2.pend && p.1 / 4096 != f })
  { s with hif := { s.hif with msix := (s.hif.msix.map drop).filter fun p => p.2 != {} } }

/-- The function is disabled: its rings, doorbells, held completions and pending interrupts go, and its
generation ends. -/
def disableFn (s : State) (f : Nat) : State :=
  if (fnAt s f).state = 1 then
    dropPending (dropWaiting (dropHeld (updFn s f fun x => { x with
      enable := false, state := 0, gen := x.gen + 1, rings := [], dropped := 0 }) f) f) f
  else s

/-- Every function disabled. -/
def disableAll (s : State) : State := (List.range 64).foldl disableFn s

/-- What the configuration shows after the event. -/
def pciAfter (p : FnPci) (c : DisableCause) : FnPci :=
  match c with
  | .d3hot => { p with d3hot := true }
  | .busMaster => { p with busMaster := false }
  | .vf => { p with present := false }
  | _ => p

/-- An FLR of a function begins (R439). A reset ends a debug unlock (14 R457). -/
def beginFlr (s : State) (f : Nat) : State := relock (updFn (disableFn s f) f fun x => { x with state := 2 })

/-- The function's registers and MSI-X state at their reset values; its generation goes on (R438, R439). -/
def endFlr (s : State) (f : Nat) : State :=
  let s := updFn s f fun x => { gen := x.gen, resetEv := true }
  let s := { s with hif := { s.hif with msix := dropRange s.hif.msix (msixKey f 0) (msixKey (f + 1) 0) } }
  postEvent s evFnReset f

/-! ### Doorbells (R410, R416 to R418) -/

/-- A consumer count read for a completion ring or the event ring. -/
def noteHead (s : State) (f i head : Nat) : State :=
  if (ringAt s f i).valid then setRing s f i { ringAt s f i with consumed := head % 2 ^ 32 } else s

/-- A tail beyond the ring's entries stops the ring (R417). -/
def ringOverrun (s : State) (f r tail : Nat) : State :=
  let s := setRing s f r { ringAt s f r with stopped := true }
  postError (enableFault s f 3) f none stMalformed r 0 0#64 r tail 0#64

/-- A tail read for a submission ring. -/
def noteTail (s : State) (f r tail : Nat) : State :=
  let x := ringAt s f r
  let t := tail % 2 ^ 32
  if !x.valid || x.stopped then s
  else if 2 ^ x.log2 < (t + 2 ^ 32 - x.consumed % 2 ^ 32) % 2 ^ 32 then ringOverrun s f r t
  else setRing s f r { x with tail := t, shared := s.hif.link.cache }

/-- The line belongs to an enabled function. -/
def doorbellOn (s : State) (f r : Nat) : Bool := s.die.d48 && decide (f < 64 ∧ r ≤ 64) && fnActive s f

/-! ### The event ring (R431) -/

/-- EVENT_LOST written ahead of any later event, once the ring has an entry free. -/
def tellLost (s : State) (f : Nat) : State :=
  let n := (fnAt s f).dropped
  if n ≠ 0 ∧ ringRoom (ringAt s f evtRing) then
    writeEntry (updFn s f fun x => { x with dropped := 0 }) f evtRing (eventWords evLost n)
  else s

/-! ### Doorbell lines read (R410, R418) -/

/-- A doorbell line read: line 64 is the event ring's, where an entry may come free. -/
def readDoorbell (s : State) (f r tail head : Nat) : State :=
  if r = 64 then tellLost (noteHead s f evtRing head) f else noteTail (noteHead s f (64 + r) head) f r tail

/-- A ring whose address or memory fails faults: FAULT with its cause, and an ERROR in the event ring; the event
ring itself takes its function down (R442). A ring that has faulted is not used until the next enable (log 93). -/
def ringFault (s : State) (f i : Nat) (x : ReadStatus) : State :=
  if i = evtRing then enableFault (disableFn s f) f (readCause x)
  else
    let s := enableFault (setRing s f i { ringAt s f i with stopped := true }) f (readCause x)
    postError s f none (if x = .poison then stPoisoned else stMalformed) (i % 64) 0 0#64 (i % 64)
      (ringAt s f i).consumed 0#64

/-- A doorbell line read, and the access to its ring that follows. -/
def readLine (s : State) (l : DoorLine) : State :=
  if l.head.status = .ok then readDoorbell s l.f l.r l.tail l.head.count
  else ringFault s l.f (if l.r = 64 then evtRing else l.r) l.head.status

/-- The lines that a poll read, from their columns. -/
def doorLines (f r tail : List Nat) (head : List HeadRead) : List DoorLine :=
  (f.zip (r.zip (tail.zip head))).map fun x => { f := x.1, r := x.2.1, tail := x.2.2.1, head := x.2.2.2 }

/-- The enabled doorbell lines, function by function. -/
def enabledLines (s : State) : List (Nat × Nat) :=
  ((List.range 64).filter (fnActive s)).flatMap fun f =>
    (((List.range 64).filter fun r => (ringAt s f r).valid) ++ [64]).map fun r => (f, r)

/-- One line of a poll: what its read returned, where the read is among `ls`. -/
def pollLine (ls : List DoorLine) (s : State) (p : Nat × Nat) : State :=
  match ls.find? fun l => l.f == p.1 && l.r == p.2 with
  | some l => readLine s l
  | none => s

/-- The poll of every enabled line, 2^POLL_LOG2 ticks after the poll before. -/
def pollDoorbells (s : State) (ls : List DoorLine) : State :=
  let s := advance s (s.hif.polled + 2 ^ s.hif.poll)
  let s := { s with hif := { s.hif with polled := now s } }
  (enabledLines s).foldl (pollLine ls) s

/-! ### What PF0 says of itself (R408, R411) -/

/-- Widths that the port advertises. -/
def portWidths : List Nat := [8, 16]

/-- A rate trains with the one flit size that the port supports at it. -/
def flitOk (rate : Nat) (flit256 : Bool) : Bool :=
  (rate == 4 && flit256) || (decide (1 ≤ rate ∧ rate ≤ 3) && !flit256)

/-- A trained link that the port supports; any other stays down. -/
def linkOk (l : HostLink) : Bool := portWidths.contains l.width && flitOk l.rate l.flit256

/-- The CDAT of PF0: the host-shared window, and its nominal latency and bandwidth. -/
def cdat : List CdatEntry :=
  [.dsmas 0 0 (2 ^ 36), .dslbis 0 .readLatency 400, .dslbis 0 .writeLatency 400,
   .dslbis 0 .readBandwidth 100, .dslbis 0 .writeBandwidth 100]

/-- The CDAT entry that a table access on function `f` returns: VFs have no DOE mailbox. -/
def cdatRead (f i : Nat) : Option CdatEntry := if f = 0 then cdat[i]? else none

/-- The DOE mailbox of function `f` takes the object: FW_LOAD, while the ROM waits for an image (14 R446). -/
def doeTakes (s : State) (f : Nat) (o : DoeObject) : Bool :=
  f == 0 && match o with
    | .cdat i => (cdat[i]?).isSome
    | .fwLoad => s.stl.romWait
    | .discovery | .spdm | .securedSpdm | .debugToken => true

end Sys2Proof.Machine
end

