-- ==== Sys2Proof/Machine/Host.lean ====
section
/-! DEFINITION. The commands of the host port and of its functions (13 R409 to R440). -/

namespace Sys2Proof.Machine

open Sys2Proof

/-- FUNCTION_ENABLE (R415). -/
def execFunctionEnable (f : Nat) (pci : FnPci) (table : Fetch) (s : State) : Out := .next (enableFn s f pci table)

/-- An FLR of PF0 (R440): every VF disabled, a running program aborted, slots and adapters left as a warm
reset leaves them. -/
def flrPf0 (s : State) : State :=
  let s := beginFlr (disableAll s) 0
  let s := abortProgram s { fn := 64, op := dtAbort }
  let s := setDdr s (warmDdr s)
  let mem := (List.range 8).foldl (fun m n =>
    if (slotAt s n).state = .empty ∨ (slotAt s n).state = .resident then m else dropSlotRegion m n) s.memory
  let l := s.load
  let measured := emptiesMeasured s
  let s := if measured then bumpMeas s else s
  { s with
    memory := mem
    load := { slots := keptSlots l.slots, adBase := l.adBase, adUnits := l.adUnits, adCount := l.adCount
              adEnable := l.adEnable }
    srv := { s.srv with books := { s.srv.books with barrier := false } } }

/-- FUNCTION_DISABLE (R436). -/
def execFunctionDisable (f : Nat) (cause : DisableCause) (s : State) : Out :=
  .next (match cause with
    | .hostLink => { disableAll s with hif := { (disableAll s).hif with link :=
        { rate := 0, width := 0, flit256 := false, cache := false, mem := false } } }
    | .flr => if 64 ≤ f then s else if f = 0 then flrPf0 s else beginFlr s f
    | c => if 64 ≤ f then s
      else updFn (disableFn s f) f fun x => { x with pci := pciAfter x.pci c })

/-- FLR_COMPLETE (R439). -/
def execFlrComplete (f : Nat) (s : State) : Out :=
  .next (if f < 64 ∧ (fnAt s f).state = 2 then endFlr s f else s)

/-- PF0_FLR (R440). -/
def execPf0Flr (s : State) : Out := .next (flrPf0 s)

/-- DOORBELL_SNOOP (R418). -/
def execDoorbellSnoop (f r tail : Nat) (head : HeadRead) (s : State) : Out :=
  .next (if doorbellOn s f r && s.hif.link.cache then readLine s { f := f, r := r, tail := tail, head := head } else s)

/-- DOORBELL_POLL (R410). -/
def execDoorbellPoll (f r tail : List Nat) (head : List HeadRead) (s : State) : Out :=
  .next (if s.die.d48 && s.hif.link.rate != 0 && !s.hif.link.cache then
      pollDoorbells s (doorLines f r tail head)
    else s)

/-- A function's held completions written while their rings have room, read from its holding queue (R430). -/
def drainQueue (s : State) (f : Nat) : State :=
  let s' := drainFn s f
  engineStep s s' (drainedSpans s s' f)

/-- COMPLETION_RING_ROOM (R430), and how the write to the ring ends (R442). -/
def execCompletionRingRoom (f r : Nat) (head : HeadRead) (s : State) : Out :=
  .next (if f < 64 ∧ r < 64 ∧ fnActive s f then
      if head.status = .ok then drainQueue (noteHead s f (64 + r) head.count) f
      else ringFault s f (64 + r) head.status
    else s)

/-- EVENT_LOST (R431), and how the write to the ring ends (R442). -/
def execEventLost (f : Nat) (head : HeadRead) (s : State) : Out :=
  .next (if f < 64 ∧ fnActive s f then
      if head.status = .ok then tellLost (noteHead s f evtRing head.count) f
      else ringFault s f evtRing head.status
    else s)

/-- INTERRUPT_COALESCE_TIMEOUT (R432): ring `r` is numbered as the context table numbers it. -/
def execInterruptCoalesceTimeout (f r : Nat) (s : State) : Out :=
  .next (if f < 64 ∧ fnActive s f then
      let x := ringAt s f r
      if x.irq ∧ x.unsig ≠ 0 ∧ x.coalTicks ≠ 0 then signalRing (advance s (x.since + x.coalTicks)) f r else s
    else s)

/-- MSIX_UNMASK (R432): a vector that pends is sent. -/
def execMsixUnmask (f vec : Nat) (s : State) : Out :=
  .next (if f < 64 ∧ vec < vectorsOf f then
      let m := look {} s.hif.msix (msixKey f vec)
      let s := { s with hif := { s.hif with
        msix := put {} s.hif.msix (msixKey f vec) { m with masked := false, pend := false } } }
      if m.pend then sendVector s f vec else s
    else s)

/-- HOST_SHARED_ACCESS (R434). -/
def execHostSharedAccess (write : Bool) (dpa : Nat) (bytes : List Byte) (s : State) : Out :=
  .next (if s.hif.hdm ∧ s.hif.link.mem ∧ s.die.d48 ∧ dpa + bytes.length ≤ 2 ^ 36 then
      hostAccess s write (shareLo + dpa) bytes
    else s)

/-- HOST_PORT_LINK_TRAINED (R409): a link below ×8, or of a rate and flit size that the port does not support,
stays down (R408). While the boot ROM waits for an image it trains for CXL.io alone (14 R446). Doorbell polls count from
here, and a snapshot that waits is written (14 R465). -/
def execHostPortLinkTrained (l : HostLink) (s : State) : Out :=
  .next (if linkOk l then
      settleDump { s with hif := { s.hif with link := if s.stl.romWait then ioOnly l else l, polled := now s } }
    else s)

/-- HDM_DECODER_COMMIT (R433). -/
def execHdmDecoderCommit (s : State) : Out := .next { s with hif := { s.hif with hdm := true } }

end Sys2Proof.Machine
end

