-- ==== Sys2Proof/Machine/Launch.lean ====
section
/-! DEFINITION. The commands of the first launch (06 R191, R192; 12 R396; 13 R427). -/

namespace Sys2Proof.Machine

open Sys2Proof

/-- COORDINATOR_LAUNCH_START (R191). -/
def execCoordinatorLaunchStart (s : State) : Out :=
  .next (if s.prog.phase = .loaded ∧ (standsAlone s ∨ isCoord s) then
      startLaunch (advance s (max s.prog.loadedAt s.prog.args.notBefore))
    else s)

/-- LAUNCH_ACK_DEADLINE (R191). -/
def execLaunchAckDeadline (s : State) : Out :=
  .next (if awaitsL1 s then
      let s := advance s (s.prog.l1 - 8192)
      if allAcked s then s else cancelLaunch s (cancelStatus s)
    else s)

/-- LAUNCH_WAIT_TIMEOUT (R427). -/
def execLaunchWaitTimeout (s : State) : Out :=
  .next (if s.prog.phase = .loaded ∧ !standsAlone s ∧ !isCoord s then
      refuseRun (advance s (s.prog.loadedAt + s.prog.args.launchWait)) stTimeout
    else s)

/-- A member's answer to a launch record. -/
def answerLaunch (s : State) (a : Auth) (r : LaunchRec) : State :=
  match planCheck s r with
  | some e => respond s a mtLaunchAnswer e
  | none => readInput (match inputRefusal s with
    | some e => respond s a mtLaunchAnswer e
    | none => respond (acceptRecord s r false) a mtLaunchAnswer stOK)

/-- LAUNCH (R396). -/
def execLaunch (a : Auth) (r : LaunchRec) (s : State) : Out :=
  .next (withAuth s .member a fun s => answerLaunch s a r)

/-- LAUNCH_ANSWER (R191). -/
def execLaunchAnswer (a : Auth) (status : Nat) (s : State) : Out :=
  .next (withAuth s .member a fun s =>
    if awaitsL1 s && (others s).contains a.sender && (ackOf s a.sender).isNone then
      { s with prog := { s.prog with acks := s.prog.acks ++ [(a.sender, heldStatus status)] } }
    else s)

end Sys2Proof.Machine
end

