-- ==== Sys2Proof/Machine/Ticks.lean ====
section
/-! DEFINITION. Stroke end, launches, holds, decision ticks, stops and cancels (04 R125 to R128; 06 R184 to R206; 07 R231; 12 R397, R399, R400). -/

namespace Sys2Proof.Machine

open Sys2Proof

/-! ### Stroke end -/

/-- CORE_STROKE_END_REACHED (R125). -/
def execCoreStrokeEndReached (v : Nat) (s : State) : Out :=
  .next (if mapped s v && coreDone (coreAt s v) then settleStroke (setCore s v (endCore (coreAt s v)))
    else s)

/-! ### STROKE_LAUNCH -/

/-- The partition's sync bound at a launch tick is beyond the limit (R184). -/
def syncLost (s : State) (l limit : Nat) : Bool := !s.tick.alone && !syncOk s l limit

/-- The first launch: the fields in effect are loaded from the record (R208), the partition runs, and
LAUNCH_PROGRAM is told (R429). -/
def firstLaunch (s : State) (rec : LaunchRec) : State :=
  let l := rec.l1
  let s := advance s l
  if syncLost s l rec.syncLimit then stopOwn s fcOverrun caSync
  else
    let s := { s with
      tick := { s.tick with runQuant := rec.quant, runLimit := rec.syncLimit, lead := rec.lead
                            path := rec.path }
      fab := { s.fab with part := if s.fab.part = .assigned then .running else s.fab.part }
      prog := { s.prog with phase := .running }
      proofs := { s.proofs with pairState := if (commonOf s).header.paired then 1 else 0 } }
    let e := if s.prog.step then variantFirst s else s.prog.entry
    let k := if s.prog.step then 1 else s.prog.committed + 1
    let s := beginStroke s k l e s.prog.rep true
    answerEvent s s.prog.asker stOK evStarted l 0 0

/-- The current stroke is the last of its run: of the program, or of a step (R231, R244). -/
def endsRun (s : State) : Bool :=
  match nextStroke s with
  | some (_, _, begins) => begins
  | none => true

/-- The cause of the stop that the device comes to at L(k+1): it is short of stroke end, or sync is lost before
another stroke (R184, R203). -/
def launchStop (s : State) (l : Nat) : Option Nat :=
  if !s.tick.ended || (endsRun s && !allHalted s) then some caLate
  else if (nextStroke s).isSome && syncLost s l s.tick.runLimit then some caSync
  else none

/-- L(k+1): the stroke's own round fixed, the commit of k due at L(k+1) + H, and the next stroke, if any. -/
def nextLaunch (s : State) (r : Nat) : State :=
  let l := launchAfter s r
  let s := advance s l
  match launchStop s l with
  | some cause => stopOwn s fcOverrun cause
  | none =>
    let s := { s with tick := { s.tick with
      commits := s.tick.commits.map fun p => if p.1 = s.tick.stroke then (p.1, l) else p } }
    match nextStroke s with
    | some (e, rep, begins) => beginStroke s ((s.tick.stroke + 1) % 2 ^ 32) l e rep begins
    | none => { s with tick := { s.tick with fixed := none } }

/-- STROKE_LAUNCH (R188). -/
def execStrokeLaunch (s : State) : Out :=
  .next (match s.prog.phase, s.prog.record, s.tick.fixed with
    | .due, some r, _ => firstLaunch s r
    | .running, _, some r => nextLaunch s r
    | _, _, _ => s)

/-! ### HOLD_POINT -/

/-- The hold for the next round sent, or the stop of round 256 (R197, R200). -/
def sendHold (s : State) (r : Nat) : State :=
  if r = 256 then stopOwn s fcHoldLimit caHoldLimit
  else
    let p := { ownPrio s with stroke := s.tick.stroke, round := r }
    let s := { s with tick := { s.tick with round := r } }
    if s.tick.alone then s
    else
      flood { s with tick := { s.tick with sent := r }
                     fab := { s.fab with congHolds := satInc 16 s.fab.congHolds } } .hold p none

/-- HOLD_POINT (R197). -/
def execHoldPoint (s : State) : Out :=
  .next (if s.tick.launched && s.tick.fixed.isNone then
      let r := s.tick.round + 1
      let s := advance s (holdPointAt s r)
      if s.tick.ended then s else sendHold s r
    else s)

/-! ### DECISION_TICK -/

/-- round[k] fixed at `r`: the strokes stretched are counted (R199, R201). -/
def fixRound (s : State) (r : Nat) : State :=
  let t := s.tick
  let t := if r = 0 then t else
    { t with holdStrokes := satInc 32 t.holdStrokes
             stretch := (t.stretch + quantTicks s * r) % 2 ^ 64 }
  { s with tick := { t with
      fixed := some r, rounds := (t.stroke, r) :: t.rounds
      stopDue := s.prog.abort.isSome || s.prog.fencing || s.prog.fencePorts != 0 } }

/-- DECISION_TICK (R199). -/
def execDecisionTick (s : State) : Out :=
  .next (if s.tick.launched && s.tick.fixed.isNone && !s.tick.commits.all (fun p => p.2 != 0) then
      let r := s.tick.check
      let s := advance s (decisionAt s r)
      if r + 1 ≤ s.tick.round then { s with tick := { s.tick with check := r + 1 } } else fixRound s r
    else s)

/-! ### HOLD, STOP, CANCEL (R193, R198, R203 to R205) -/

/-- A hold later than the round fixed for its stroke (R203). -/
def holdLate (t : Tick) (p : Prio) : Bool :=
  t.launched && (match t.rounds.find? fun x => x.1 == p.stroke with
    | some x => decide (x.2 < p.round)
    | none => false)

/-- A hold that makes the program late in the tick in which a STOP ended it (R205). -/
def holdStops (s : State) (p : Prio) : Bool := stoppedNow s && holdLate s.cut.tick p

/-- A received hold. DESIGN CHOICE (log 95): after a stop one of the stopped program's epoch counts as stale. -/
def takeHold (s : State) (n : Nat) (p : Prio) : State :=
  if !prioOk s n p then prioDrop s n
  else if !(epochOk s p && (progLive s || holdStops s p)) then countStale s
  else if prioSeen s p.stroke p.round then s
  else
    let s := forwardPrio s .hold n p.stroke p.round p
    if holdStops s p || holdLate s.tick p then stopOwn s fcOverrun caHoldLate
    else if s.tick.launched && p.stroke == s.tick.stroke then
      { s with tick := { s.tick with round := max s.tick.round p.round } }
    else s

/-- The stop that the device itself comes to in this tick, as code and cause: a launch tick short of stroke
end or with sync lost, the hold point of round 256, or a stop point with an abort or a fence waiting
(R184, R200, R203, R397, R399). -/
def ownStopDue (s : State) : Option (Nat × Nat) :=
  if !s.tick.launched then
    match s.prog.phase, s.prog.record with
    | .due, some rec =>
      if now s = rec.l1 ∧ syncLost s rec.l1 rec.syncLimit then some (fcOverrun, caSync) else none
    | _, _ => none
  else match s.tick.fixed with
    | some r =>
      if now s = launchAfter s r then (launchStop s (now s)).map fun c => (fcOverrun, c)
      else if now s = decisionAt s r ∧ s.tick.stopDue then
        some (if s.prog.abort.isSome then (0, caAbort) else (fcFenced, caFenced))
      else none
    | none =>
      if s.tick.round = 255 ∧ now s = holdPointAt s 256 ∧ !s.tick.ended then some (fcHoldLimit, caHoldLimit)
      else none

/-- The fault code of a received STOP: the device writes no reserved value (R10), and takes the one of the cause
(table of R207). DESIGN CHOICE (log 95). -/
def stopCode (p : Prio) : Nat :=
  if p.code ≤ fcGrid then p.code
  else match p.cause with
    | 0x3 => fcHoldLimit
    | 0x5 => fcUncorr
    | 0x7 => fcLinkDown
    | 0x8 => fcUncorr
    | 0x9 => fcFenced
    | 0xA => 0
    | _ => fcOverrun

/-- A received STOP. A stop of the device's own in the same tick is the one recorded (R205). -/
def takeStop (s : State) (n : Nat) (p : Prio) : State :=
  if !prioOk s n p then prioDrop s n
  else if !epochOk s p then countStale s
  else if prioSeen s p.stroke (seenStop p.origin) then s
  else
    let early := s.prog.phase == .due && s.fab.coord == s.fab.id && decide (now s + 8192 < s.prog.l1)
    let s := forwardPrio s .stop n p.stroke (seenStop p.origin) p
    let s := if early then flood s .cancel (ownPrio s) none else s
    match ownStopDue s with
    | some (code, cause) => stopOwn s code cause
    | none => stopPartition s (stopCode p) p.cause p.stroke false p.origin

/-- A received CANCEL: a record held is given up, and the device waits for another (R191, R427). -/
def takeCancel (s : State) (n : Nat) (p : Prio) : State :=
  if !prioOk s n p then prioDrop s n
  else if !epochOk s p then countStale s
  else if prioSeen s 0 (seenCancel p.epoch) then s
  else
    let s := forwardPrio s .cancel n 0 (seenCancel p.epoch) p
    if s.prog.phase = .due then { s with prog := { s.prog with phase := .loaded, record := none } } else s

/-- HOLD (R198). -/
def execHold (n : Nat) (p : Prio) (s : State) : Out := .next (takeHold s n p)

/-- STOP (R204). -/
def execStop (n : Nat) (p : Prio) (s : State) : Out := .next (takeStop s n p)

/-- LAUNCH_CANCEL (R191). -/
def execLaunchCancel (n : Nat) (p : Prio) (s : State) : Out := .next (takeCancel s n p)

/-! ### Crossings and droops -/

/-- CROSSING_LATE_ARRIVAL (R176). -/
def execCrossingLateArrival (s : State) : Out :=
  .next { s with tick := { s.tick with xingLate := satInc 16 s.tick.xingLate } }

/-- DROOP_DETECTED (R174). -/
def execDroopDetected (h : Nat) (s : State) : Out :=
  .next (if h < 48 then updHeath s h fun x => { x with
      droop := satInc 16 x.droop, droops := (now s :: x.droops).take 65 } else s)

end Sys2Proof.Machine
end

