-- ==== Sys2Proof/Machine/FlitOps.lean ====
section
/-! DEFINITION. Flits sent and received (11 R341, R357 to R370). -/

namespace Sys2Proof.Machine

open Sys2Proof

/-! ### Trailers (R357, R358) -/

/-- The counts that a link reports in turn: its operating VCs, then the shared count (R366). -/
def reportKeys (l : Link) : List Nat := vcsOf (l.vcOper ||| 1) ++ [8]

/-- The trailer's bits [63:0] for a sequence number. -/
def trailerWord (l : Link) (seq : Nat) : Nat :=
  let k := nth 8 (reportKeys l) (l.report % (reportKeys l).length)
  seq % 2 ^ 20 + (l.expect + 0xFFFFF) % 2 ^ 20 * 2 ^ 20 + b2n l.nak * 2 ^ 40 +
    (if k = 8 then 2 ^ 41 else k * 2 ^ 42) + look 0 l.granted k * 2 ^ 45

/-- The header's word 0. -/
def headerWord (l : Link) (f : TxFlit) : Nat :=
  l.proto % 16 + f.vc % 8 * 2 ^ 4 + b2n f.shared * 2 ^ 7 + f.kind % 8 * 2 ^ 8 + b2n f.discard * 2 ^ 11 +
    b2n f.linkmsg * 2 ^ 12 + f.words % 32 * 2 ^ 16 + f.pkey % 2 ^ 16 * 2 ^ 24

/-- The CRC of a flit. -/
def flitCrc (header : BitVec 128) (payload : List Byte) (t : Nat) : DWord :=
  crc64 (leBytes 16 header.toNat ++ payload ++ leBytes 8 t)

/-- A flit as it goes on the wire. -/
def wireFlit (l : Link) (f : TxFlit) (seq : Nat) : Flit :=
  let payload := (f.data ++ List.replicate 224 0).take 224
  let h := BitVec.ofNat 128 (headerWord l f)
  let t := trailerWord l seq
  { header := h, payload := payload, trailer := BitVec.ofNat 128 (t + (flitCrc h payload t).toNat * 2 ^ 64) }

/-- The flit on the wire, and the next count to report. -/
def putWire (l : Link) (f : TxFlit) (seq : Nat) : Link :=
  { l with wire := some (wireFlit l f seq), report := (l.report + 1) % (reportKeys l).length }

/-! ### Choosing a flit (R360, R362, R367, R370) -/

/-- The four words of a priority flit. -/
def prioBytes (ptype : Nat) (p : Prio) : List Byte :=
  leBytes 8 (ptype + p.pkey % 2 ^ 16 * 2 ^ 8 + p.epoch % 2 ^ 16 * 2 ^ 24 + p.origin % 2 ^ 24 * 2 ^ 40) ++
  leBytes 8 (p.stroke % 2 ^ 32 + p.round % 2 ^ 8 * 2 ^ 32 + p.code % 2 ^ 8 * 2 ^ 40 +
    p.cause % 16 * 2 ^ 48) ++
  leBytes 8 p.gtc ++ leBytes 8 (p.frac % 16)

/-- The priority flit that waits first, and the link without the copy sent. A BEACON carries the GTC at
which it leaves. -/
def nextPrio (s : State) (l : Link) : Option (List Byte × Nat × Link) :=
  let pw := l.prio
  let again := fun (p : Prio) (k : Nat) => if 1 < k then some (p, k - 1) else none
  match pw.stop, pw.cancel, pw.hold, pw.beacon with
  | some (p, k), _, _, _ => some (prioBytes 2 p, p.pkey, { l with prio := { pw with stop := again p k } })
  | _, some (p, k), _, _ =>
    some (prioBytes 3 p, p.pkey, { l with prio := { pw with cancel := again p k } })
  | _, _, some (p, k), _ => some (prioBytes 1 p, p.pkey, { l with prio := { pw with hold := again p k } })
  | _, _, _, some p =>
    some (prioBytes 4 { p with gtc := now s }, p.pkey, { l with prio := { pw with beacon := none } })
  | _, _, _, _ => none

/-- A credit for VC `v`: whether shared (R367). -/
def creditFor (l : Link) (v : Nat) : Option Bool :=
  if 0 < look 0 l.credits v then some false
  else if 0 < look 0 l.credits 8 then some true
  else none

/-- The first flit of a VC's queue; the queue without it. -/
def takeFlit (l : Link) (v : Nat) : Option (TxFlit × Link) :=
  match look [] l.queue v with
  | f :: q => some (f, { l with queue := put [] l.queue v q })
  | [] => none

/-- The flits up to the end of a packet, and those after it. -/
def restOfPacket : List TxFlit → List TxFlit × List TxFlit
  | [] => ([], [])
  | f :: r => if f.kind = 3 then ([f], r) else (f :: (restOfPacket r).1, (restOfPacket r).2)

/-- The first packet whose first flit leaves by transmit slot entry `e`: that flit, and the queue with the rest of
the packet in front, so that no other packet of the VC comes between (R359). -/
def openFlow (e : Nat) : List TxFlit → Option (TxFlit × List TxFlit)
  | [] => none
  | f :: r =>
    if f.flow = e ∧ (f.kind = 1 ∨ f.kind = 4) then
      some (f, if f.kind = 1 then (restOfPacket r).1 ++ (restOfPacket r).2 else r)
    else match openFlow e r with
      | some (g, q) =>
        if g.kind = 1 then some (g, (restOfPacket q).1 ++ f :: (restOfPacket q).2) else some (g, f :: q)
      | none => none

/-- The next flit of VC1 for entry `e`: of the packet that has begun, or of the first one of the flow. -/
def takeSched (l : Link) (e : Nat) : Option (TxFlit × Link) :=
  let q := look [] l.queue 1
  let r := if l.openVc1 then
      (match q with
       | f :: r => if f.flow = e then some (f, r) else none
       | [] => none)
    else openFlow e q
  r.map fun x => (x.1, { l with queue := put [] l.queue 1 x.2, openVc1 := x.1.kind == 1 || x.1.kind == 2 })

/-- A sequenced flit may be sent on VC `v`: the VC operates, the replay buffer has room, and there is a
credit. -/
def maySend (l : Link) (v : Nat) : Bool :=
  (v == 0 || (l.state == .up && l.vcOper.getLsbD v)) && decide (l.replay.length < 2048) &&
  (creditFor l v).isSome

/-- The transmitter's slot entry for its current slot. -/
def txEntry (s : State) (n slot : Nat) : BitVec 16 :=
  if slot < 120 then look 0 s.fab.txNow (120 * n + slot) else 0

/-- The next VC of the round robin with a flit ready and a credit. -/
def rrPick (l : Link) : Option Nat :=
  ((List.range 6).map fun i => 2 + (l.rr - 2 + i) % 6).find? fun v =>
    !(look [] l.queue v).isEmpty && maySend l v

/-- The VC1 flow of the slot, with a flit ready and a credit. -/
def schedReady (s : State) (n : Nat) (l : Link) : Bool :=
  let e := (txEntry s n l.slotNo).toNat
  bits e 15 14 != 0 && (takeSched l e).isSome && maySend l 1

/-- The next link message. -/
def takeMsg (l : Link) : Option (TxFlit × Link) :=
  match l.msgs with
  | f :: r => some (f, { l with msgs := r })
  | [] => none

/-- The next flit for a slot, by R360: the flit and the queue's link, or none for IDLE. -/
def pickFlit (s : State) (n : Nat) (l : Link) : Option (TxFlit × Link) :=
  if schedReady s n l then takeSched l (txEntry s n l.slotNo).toNat
  else if l.msgs ≠ [] then takeMsg l
  else if (look [] l.queue 0) ≠ [] ∧ l.state ≠ .discovery ∧ maySend l 0 then takeFlit l 0
  else match rrPick l with
    | some v => takeFlit { l with rr := if v = 7 then 2 else v + 1 } v
    | none => none

/-! ### The transmit buffers' code (R342) -/

/-- A word of the flit is uncorrectable. -/
def flitBad (f : TxFlit) : Bool := f.flips.any fun p => (eccRead p.2).1 == .bad

/-- The flit as it is taken from its buffer: its words corrected and the check bits stripped; with an
uncorrectable word, DISCARD and a payload of zeros. -/
def takenFlit (f : TxFlit) : TxFlit :=
  if flitBad f then { f with discard := true, data := f.data.map fun _ => 0, flips := [] }
  else if f.flips = [] then f
  else { f with data := f.data.zipIdx.map (fun p => p.1 ^^^ residByte f.flips p.2), flips := [] }

/-- No further flit of a packet that was cut short is sent. -/
def cutRest (l : Link) (f : TxFlit) : Link :=
  let l := if f.vc = 1 then { l with openVc1 := false } else l
  if f.kind = 1 ∨ f.kind = 2 then
    { l with queue := put [] l.queue f.vc (restOfPacket (look [] l.queue f.vc)).2 }
  else l

/-- A sequenced flit sent for the first time. -/
def sendFirst (s : State) (l : Link) (f : TxFlit) : Link :=
  let sh := (creditFor l f.vc).getD false
  let l := if flitBad f then cutRest l f else l
  let f := { takenFlit f with shared := sh }
  let l := { l with
    credits := upd 0 l.credits (if sh then 8 else f.vc) (· - 1)
    timerAt := if l.replay = [] then now s else l.timerAt
    replay := l.replay ++ [(l.nextSeq, f, 0)] }
  { putWire l f l.nextSeq with nextSeq := (l.nextSeq + 1) % 2 ^ 20 }

/-- The entry after `seq` in the replay buffer. -/
def afterSeq (seq : Nat) : List (Nat × TxFlit × Nat) → Option Nat
  | a :: b :: r => if a.1 = seq then some b.1 else afterSeq seq (b :: r)
  | _ => none

/-- The next flit of the replay in progress. -/
def sendReplay (l : Link) (seq : Nat) (by_ : ReplayBy) : Link :=
  match replayEntry l seq with
  | some (_, f, _) =>
    let next := afterSeq seq l.replay
    { putWire l f seq with
      resent := satInc 32 l.resent
      replaying := next.map fun q => (q, by_)
      nakFrom := if next.isNone then none else l.nakFrom }
  | none => { l with replaying := none, nakFrom := none }

/-- Counters of the congestion interval (R393). -/
def noteSent (s : State) (n : Nat) (f : Option TxFlit) (again : Bool) : State :=
  { s with fab := { s.fab with cong := upd {} s.fab.cong n fun c => { c with
    sent := match f with
      | some f => upd 0 c.sent f.vc (· + 1)
      | none => c.sent
    resent := if again then satInc 16 c.resent else c.resent } } }

/-- The length class of a credit wait (R393). -/
def waitClass (t : Nat) : Nat := if t < 64 then 0 else if t < 1024 then 1 else if t < 16384 then 2 else 3

/-- VCs whose next flit waits for a credit, noted with the tick. -/
def noteWaits (s : State) (l : Link) : Link :=
  { l with waits := (List.range 8).foldl (fun m v =>
      if (look [] l.queue v).isEmpty || (creditFor l v).isSome || look 0 m v != 0 then m
      else put 0 m v (now s + 1)) l.waits }

/-- The wait of VC `v` is over. -/
def endWait (s : State) (n v : Nat) : State :=
  let w := look 0 (linkAt s n).waits v
  if w = 0 then s
  else
    let s := updLink s n fun l => { l with waits := put 0 l.waits v 0 }
    { s with fab := { s.fab with cong := upd {} s.fab.cong n fun c =>
      { c with stall := upd 0 c.stall (waitClass (now s + 1 - w)) (satInc 16) } } }

/-- Slots of a frame that priority flits leave: they take the free ones, the highest-numbered first, and no
scheduled one (R341). -/
def frameSlots (l : Link) : Nat := 125 - min 5 l.displaced

/-- A frame that needs more than its free slots goes on past its end, until its scheduled slots are sent. -/
def frameRunsOn (l : Link) (t : Nat) : Bool :=
  decide (5 < l.displaced ∧ l.slotNo < 120 ∧ t ≤ 64 * l.frame + 64 * (120 + l.displaced) / 125)

/-- Slot 0 of frame `f`, later than the frame being sent. What that one needed beyond its free slots is taken from
the free slots of the next. -/
def startFrame (l : Link) (f : Nat) : Link :=
  { l with frame := f, slotNo := 0, displaced := l.displaced - 5 * (f - l.frame) }

/-- The slot that comes next: slot 0 of a frame that the GTC has reached, or of the next one where the frame is
full; the GTC is at least at the slot's tick (R341, R376). -/
def frameStep (s : State) (n : Nat) : State :=
  let l := linkAt s n
  let f := now s / 64
  let l := if frameSlots l ≤ l.slotNo then startFrame l (max f (l.frame + 1))
    else if l.frame < f ∧ !frameRunsOn l (now s) then startFrame l f
    else l
  advance (setLink s n l) (slotTick l)

/-- One flit sent on a running link. -/
def transmit (s : State) (n : Nat) : State :=
  let s := frameStep s n
  let l := linkAt s n
  match (if l.state = .up then nextPrio s l else none) with
  | some (bs, key, l') =>
    settleFence (setLink s n (putWire { l' with displaced := l'.displaced + 1 }
      { kind := 5, words := 4, pkey := key, data := bs } 0)) n
  | none =>
    let step := fun (l : Link) => { l with slotNo := l.slotNo + 1 }
    match l.replaying with
    | some (seq, by_) =>
      noteSent (setLink s n (step (sendReplay l seq by_))) n ((replayEntry l seq).map (·.2.1)) true
    | none =>
      match pickFlit s n l with
      | some (f, l') =>
        if f.linkmsg then noteSent (setLink s n (step (putWire l' f 0))) n (some f) false
        else endWait (noteSent (setLink s n (noteWaits s (step (sendFirst s l' f)))) n (some f) false) n f.vc
      | none => setLink s n (noteWaits s (step (putWire l { kind := 0, words := 0 } 0)))

/-! ### A received flit (R358, R361, R367, R369, R370) -/

/-- How far `a` lies ahead of `b`, modulo 2^20. -/
def seqAhead (a b : Nat) : Nat := (a % 2 ^ 20 + 2 ^ 20 - b % 2 ^ 20) % 2 ^ 20

/-- The flit is good. DESIGN CHOICE (log 26): the reserved KIND 7 makes a flit bad. -/
def goodFlit (l : Link) (f : Flit) : Bool :=
  let h := f.header.toNat
  f.payload.length == 224 &&
  (f.trailer.toNat >>> 64) == (flitCrc f.header f.payload (f.trailer.toNat % 2 ^ 64)).toNat &&
  bits h 3 0 == l.proto && bits h 15 13 == 0 && bits h 23 21 == 0 && bits h 127 40 == 0 &&
  bits h 10 8 != 7

/-- NAK set. -/
def setNak (s : State) (n : Nat) : State :=
  updLink s n fun l => if l.nak then l else { l with nak := true, naks := satInc 16 l.naks }

/-- A bad flit. -/
def badFlit (s : State) (n : Nat) : State :=
  let s := updLink s n fun l => { l with bad := satInc 16 l.bad }
  let s := { s with fab := { s.fab with cong := upd {} s.fab.cong n fun c =>
    { c with bad := satInc 16 c.bad } } }
  setNak s n

/-- ACK: the flits it covers leave the replay buffer; a timer's replay ends (R370). -/
def takeAck (s : State) (n ack : Nat) : State :=
  updLink s n fun l =>
    let keep := l.replay.filter fun p => !decide (seqAhead ack p.1 < 2 ^ 19)
    if keep.length = l.replay.length then l
    else
      let rep := match l.replaying with
        | some (_, .timer) => none
        | some (q, k) => if keep.any (fun p => p.1 == q) then l.replaying
          else match keep with
            | p :: _ => if decide (seqAhead p.1 q < 2 ^ 19) then some (p.1, k) else none
            | [] => none
        | none => none
      { l with replay := keep, timerAt := now s, replaying := rep
               nakFrom := if rep.isNone then none else l.nakFrom }

/-- A credit report. -/
def takeCredit (l : Link) (k count : Nat) : Link :=
  { l with credits := upd 0 l.credits k (· + (count + 4096 - look 0 l.seen k) % 4096)
           seen := put 0 l.seen k count }

/-- The trailer of a good flit. -/
def takeTrailer (s : State) (n t : Nat) : State :=
  let s := takeAck s n (bits t 39 20)
  let s := updLink s n fun l => takeCredit l (if bit t 41 then 8 else bits t 44 42) (bits t 56 45)
  let l := linkAt s n
  if bit t 40 ∧ l.nakFrom ≠ some (bits t 39 20) then startReplay s n ((bits t 39 20 + 1) % 2 ^ 20) true
  else s

/-- The received flit as the port keeps it. -/
def flitOf (f : Flit) (slot : Nat) : TxFlit :=
  let h := f.header.toNat
  { vc := bits h 6 4, kind := bits h 10 8, discard := bit h 11, linkmsg := bit h 12, shared := bit h 7
    words := bits h 20 16, pkey := bits h 39 24, flow := slot
    data := f.payload.take (8 * min 28 (bits h 20 16)) }

/-- A priority flit's content and type. -/
def prioOf (bs : List Byte) : Nat × Prio :=
  let w := fun i => leNat ((bs.drop (8 * i)).take 8)
  (bits (w 0) 7 0,
   { pkey := bits (w 0) 23 8, epoch := bits (w 0) 39 24, origin := bits (w 0) 63 40
     stroke := bits (w 1) 31 0, round := bits (w 1) 39 32, code := bits (w 1) 47 40
     cause := bits (w 1) 51 48, gtc := w 2, frac := bits (w 3) 3 0 })

/-- A priority flit received. -/
def takePrio (s : State) (n : Nat) (bs : List Byte) : State :=
  let (t, p) := prioOf bs
  match t with
  | 1 => takeHold s n p
  | 2 => takeStop s n p
  | 3 => takeCancel s n p
  | 4 => takeBeacon s n p
  | _ => s

/-- A link message received: the port consumes it. -/
def takeLinkMsg (s : State) (n : Nat) (bs : List Byte) : State :=
  let w := leNat (bs.take 8)
  match bits w 7 0 with
  | 1 => takeRecord s n (recordOf bs)
  | 2 => takeVerdict s n (bits w 9 8) (bits w 15 12)
  | 3 => if mayRediscover s n then enterDiscovery s n else s
  | _ => s

/-- The port takes flits of VC `v`: VC0 outside DISCOVERY, and others in UP on an operating VC. -/
def takesVc (l : Link) (v : Nat) : Bool :=
  if v = 0 then l.vcOper.getLsbD 0 else l.state == .up && l.vcOper.getLsbD v

/-- A sequenced flit accepted in order: stored, or discarded with its credit granted and no buffer taken. -/
def acceptFlit (s : State) (n : Nat) (f : TxFlit) : State :=
  let s := updLink s n fun l => { l with expect := (l.expect + 1) % 2 ^ 20, nak := false }
  let l := linkAt s n
  if f.kind = 6 then setLink s n (creditBack l f)
  else if !takesVc l f.vc then setLink s n { creditBack l f with vcDrop := satInc 16 l.vcDrop }
  else if foreignKey s f.vc f.pkey then
    let s := setLink s n (creditBack l f)
    if f.kind = 1 ∨ f.kind = 4 then countForeign s else s
  else
    let free := l.pool - 1
    let s := setLink s n { l with rx := put [] l.rx f.vc (look [] l.rx f.vc ++ [f]), pool := free }
    { s with fab := { s.fab with cong := upd {} s.fab.cong n fun c =>
      { c with poolMin := min c.poolMin free } } }

/-- A good flit by its kind and sequence number. -/
def takeGood (s : State) (n seq : Nat) (f : TxFlit) : State :=
  let l := linkAt s n
  if f.kind = 0 then s
  else if f.kind = 5 then (if l.state = .up ∧ f.words = 4 then takePrio s n f.data else s)
  else if f.linkmsg then takeLinkMsg s n f.data
  else if seq = l.expect then acceptFlit s n f
  else if seqAhead l.expect seq ≤ 2 ^ 19 then setLink s n { l with dup := satInc 16 l.dup }
  else setNak s n

/-- A flit received on a running link. -/
def receiveFlit (s : State) (n slot : Nat) (f : Flit) : State :=
  if goodFlit (linkAt s n) f then
    let s := takeTrailer s n (f.trailer.toNat % 2 ^ 64)
    if linkRuns (linkAt s n) then takeGood s n (bits f.trailer.toNat 19 0) (flitOf f slot) else s
  else badFlit s n

end Sys2Proof.Machine
end

