-- ==== Sys2Proof/Machine/Links.lean ====
section
/-! DEFINITION. The commands of the Vaesk links (11 R343 to R376). -/

namespace Sys2Proof.Machine

open Sys2Proof

/-- A command of link `n`, which exists. -/
def linkCommand (s : State) (n : Nat) (f : State → State) : Out := .next (if n < linkCount then f s else s)

/-! ### Software -/

/-- LINK_ENABLE (R343). -/
def execLinkEnable (n : Nat) (s : State) : Out :=
  linkCommand s n fun s => startLink s n

/-- LINK_DISABLE (R344). -/
def execLinkDisable (n : Nat) (s : State) : Out :=
  linkCommand s n fun s => linkOff (updLink s n fun l => { l with enable := false }) n

/-- LINK_FENCE (R373). -/
def execLinkFence (n : Nat) (elec : Bool) (s : State) : Out := linkCommand s n fun s => setFence s n elec

/-- LINK_UNFENCE (R374). -/
def execLinkUnfence (n : Nat) (s : State) : Out := linkCommand s n fun s => clearFence s n

/-- LINK_REDISCOVER (R355). -/
def execLinkRediscover (n : Nat) (s : State) : Out := linkCommand s n fun s => rediscoverLink s n

/-! ### Training and discovery -/

/-- Lanes that failed, of the nine. -/
def lanesFailed (m : BitVec 9) : List Nat := (List.range 9).filter fun j => m.getLsbD j

/-- The active lane that lane 8 replaces; 0xF none. -/
def spareLane (m : BitVec 9) : Nat :=
  match lanesFailed m with
  | [j] => if j < 8 then j else 0xF
  | _ => 0xF

/-- The link starts its link layer (R346, R347, R366). -/
def trained (l : Link) (failed : BitVec 9) (delay : Nat) : Link :=
  { emptyLink l with
    failed := failed, spareFor := spareLane failed, delay := delay
    timer := 2 * ((delay + 15) / 16) + 128, credits := [(0, 64)], resv := [(0, 64)] }

/-- TRAINING_COMPLETE (R346). -/
def execTrainingComplete (n : Nat) (failed : BitVec 9) (delay : Nat) (s : State) : Out :=
  linkCommand s n fun s =>
    if (linkAt s n).state ≠ .training then s
    else if 2 ≤ (lanesFailed failed).length then
      linkDown (updLink s n fun l => { l with failed := failed }) n 2
    else if 6400 < delay then
      linkDown (updLink s n fun l => { l with failed := failed, spareFor := spareLane failed, delay := delay }) n 3
    else enterDiscovery (updLink s n fun l => trained l failed delay) n

/-- TRAINING_TIMEOUT (R343). -/
def execTrainingTimeout (n : Nat) (s : State) : Out :=
  linkCommand s n fun s =>
    if (linkAt s n).state = .training then linkDown (advance s ((linkAt s n).since + 2 ^ 26)) n 1 else s

/-- RECORD (R348). -/
def execRecord (n : Nat) (r : Disc) (s : State) : Out := linkCommand s n fun s => takeRecord s n r

/-- LINK_VERDICT (R353). -/
def execLinkVerdict (n verdict reason : Nat) (s : State) : Out :=
  linkCommand s n fun s => takeVerdict s n verdict reason

/-- REDISCOVER (R355). -/
def execRediscover (n : Nat) (s : State) : Out :=
  linkCommand s n fun s => if mayRediscover s n then enterDiscovery s n else s

/-- The next repetition after now, every 2^16 ticks from the state's start. -/
def repeatAt (s : State) (l : Link) : Nat := l.since + 2 ^ 16 * ((now s - l.since) / 2 ^ 16 + 1)

/-- DISCOVERY_REPEAT (R348). -/
def execDiscoveryRepeat (n : Nat) (s : State) : Out :=
  linkCommand s n fun s =>
    let l := linkAt s n
    if l.state ≠ .discovery then s
    else
      let s := advance s (repeatAt s l)
      match l.verdict with
      | none => sendRecord s n
      | some (v, r) => if l.peerVerdict.isNone then sendVerdict s n v r else s

/-- DISCOVERY_TIMEOUT (R343). -/
def execDiscoveryTimeout (n : Nat) (s : State) : Out :=
  linkCommand s n fun s =>
    if (linkAt s n).state = .discovery then linkDown (advance s ((linkAt s n).since + 2 ^ 24)) n 4 else s

/-! ### Flits -/

/-- FLIT_SLOT_TRANSMIT (R360). -/
def execFlitSlotTransmit (n : Nat) (s : State) : Out :=
  linkCommand s n fun s => if linkRuns (linkAt s n) then transmit s n else s

/-- Codewords that the FEC corrected, or could not, since the flit before (R377; 12 R404). -/
def noteFec (s : State) (n corrected bad : Nat) : State :=
  updLink s n fun l => { l with
    fecCorr := satTo 16 (l.fecCorr + corrected), fecBad := satTo 16 (l.fecBad + bad)
    fecWin := if corrected = 0 then l.fecWin else l.fecWin.add (now s) corrected }

/-- FLIT_RECEIVE (R369), with the codewords that the FEC corrected and could not. -/
def execFlitReceive (n slot : Nat) (f : RxFlit) (s : State) : Out :=
  linkCommand s n fun s =>
    if linkRuns (linkAt s n) then receiveFlit (noteFec s n f.corrected f.bad) n slot f.flit else s

/-- REPLAY_TIMER_EXPIRY (R370). -/
def execReplayTimerExpiry (n : Nat) (s : State) : Out :=
  linkCommand s n fun s =>
    let l := linkAt s n
    match l.replay with
    | p :: _ =>
      if linkRuns l then
        let s := advance s (l.timerAt + l.timer)
        startReplay (updLink s n fun l => { l with timerAt := now s }) n p.1 false
      else s
    | [] => s

/-! ### Retraining and engine faults -/

/-- LANE_LOCK_LOSS (R371). -/
def execLaneLockLoss (n lane : Nat) (s : State) : Out :=
  linkCommand s n fun s => if lane < 9 then retrain s n else s

/-- `FAILED` with one more lane (R377). -/
def withFailed (l : Link) (lane : Nat) : BitVec 9 := l.failed ||| BitVec.ofNat 9 (2 ^ lane)

/-- A lane found failed at the resume: lane 8 takes its place where it is free (R371, R372). -/
def spareFor (l : Link) (lane : Nat) : Option Link :=
  let m := withFailed l lane
  if lane = 8 ∧ l.spareFor = 0xF then some { l with failed := m }
  else if lane < 8 ∧ l.spareFor = 0xF ∧ !l.failed.getLsbD 8 then
    some { l with failed := m, spareFor := lane }
  else none

/-- RETRAIN_COMPLETE (R371). -/
def execRetrainComplete (n : Nat) (r : RetrainEnd) (s : State) : Out :=
  linkCommand s n fun s =>
    if (linkAt s n).state ≠ .retrain then s
    else match r with
      | .failed => linkDown s n 0xA
      | .resumed none => resumeLink s n
      | .resumed (some lane) => match spareFor (linkAt s n) lane with
        | some l => resumeLink (setLink s n l) n
        | none => linkDown (updLink s n fun l => { l with failed := withFailed l lane }) n 2

/-- The links of port engine `e` (table of R376). -/
def engineLinks (e : Nat) : List Nat :=
  let r := fun a b => (List.range (b + 1 - a)).map (a + ·)
  match e with
  | 0 => r 0 3
  | 1 => r 4 6
  | 2 => r 7 10
  | 3 => r 11 13
  | 4 => r 14 24
  | 5 => r 25 35
  | _ => []

/-- PORT_ENGINE_FAULT (R376). -/
def execPortEngineFault (e : Nat) (s : State) : Out :=
  .next (if e < 6 then
      (engineLinks e).foldl (fun s n => linkDown s n 0xB)
        { s with fab := { s.fab with engFault := s.fab.engFault ||| BitVec.ofNat 6 (2 ^ e) } }
    else s)

end Sys2Proof.Machine
end

