-- ==== Sys2Proof/Machine/Manage.lean ====
section
/-! DEFINITION. The fabric manager's commands, aborts and stop points (12 R381, R394, R397 to R402). -/

namespace Sys2Proof.Machine

open Sys2Proof

/-- PLAN_WRITE (R381). -/
def execPlanWrite (a : Auth) (part : PlanPart) (s : State) : Out :=
  .next (withAuth s .manager a fun s =>
    let r := writePart s.fab.common s.fab.device part
    respond { s with fab := { s.fab with common := r.2.1, device := r.2.2 } } a mtResponse r.1)

/-- PLAN_COMMIT (R381). -/
def execPlanCommit (a : Auth) (digest key : Digest) (s : State) : Out :=
  .next (withAuth s .manager a fun s =>
    match commitRefusal s digest with
    | some e => respond s a mtResponse e
    | none => respond (commitPlan s digest key) a mtResponse stOK)

/-- TEARDOWN (R402). -/
def execTeardown (a : Auth) (s : State) : Out :=
  .next (withAuth s .manager a fun s =>
    if (s.fab.part = .assigned ∨ s.fab.part = .fenced) ∧ !s.tick.launched then
      waitResponse (beginTeardown s) a
    else respond s a mtResponse stNoRes)

/-- TEARDOWN_COMPLETE (R402): not before the stores have been zeroed. -/
def execTeardownComplete (s : State) : Out :=
  .next (if s.fab.part = .teardown ∧ storesZeroed s then endTeardown s else s)

/-- FENCE_PORTS (R399). -/
def execFencePorts (a : Auth) (links : BitVec 36) (elec : Bool) (s : State) : Out :=
  .next (withAuth s .manager a fun s =>
    let lanes := if elec then links else 0
    if s.tick.launched && (linksOf links).any (carriesSched s) then
      waitResponse { s with prog := { s.prog with
        fencePorts := s.prog.fencePorts ||| links, fenceElec := s.prog.fenceElec ||| lanes } } a
    else respond (fenceNamed s links lanes) a mtResponse stOK)

/-- FENCE_DEVICE (R400). -/
def execFenceDevice (a : Auth) (s : State) : Out :=
  .next (withAuth s .manager a fun s =>
    if s.fab.part = .teardown ∨ s.fab.part = .fenced then
      respond { s with fab := { s.fab with unfencing := false } } a mtResponse stOK
    else if s.tick.launched then waitResponse { s with prog := { s.prog with fencing := true } } a
    else
      let s := if s.prog.phase = .due then stopOwn s fcFenced caFenced else s
      respond (fenceDevice s) a mtResponse stOK)

/-- UNFENCE (R400): a fenced device is torn down, and its links are then unfenced; links left fenced by an earlier
teardown are unfenced at once (R402). -/
def execUnfence (a : Auth) (s : State) : Out :=
  .next (withAuth s .manager a fun s =>
    if s.fab.part = .fenced ∧ !s.tick.launched then
      let s := beginTeardown s
      waitResponse { s with fab := { s.fab with unfencing := true } } a
    else if s.fab.part = .unassigned ∧ (List.range linkCount).any (fun n => (linkAt s n).fence) then
      respond (unfenceAll s) a mtResponse stOK
    else respond s a mtResponse stNoRes)

/-- RESPONSE (R394). -/
def execResponse (a : Auth) (status : Nat) (s : State) : Out :=
  .next (withAuth s .any a fun s =>
    match s.fab.abortFor with
    | some w =>
      if a.sender = s.fab.coord then
        answerStatus { s with fab := { s.fab with abortFor := none } } w (heldStatus status)
      else s
    | none => s)

/-- ABORT (R397). -/
def execAbort (a : Auth) (s : State) : Out :=
  .next (withAuth s .member a fun s =>
    if isCoord s then takeAbort s { op := 0x12, tag := dw a.sender } else s)

/-- STOP_POINT (R397). -/
def execStopPoint (s : State) : Out := .next (stopPointNow s)

end Sys2Proof.Machine
end

