-- ==== Sys2Proof/Machine/MemEvents.lean ====
section
/-! DEFINITION. Patrol scrub, channel scores, copy-out and granule repair (05 R150 to R158). -/

namespace Sys2Proof.Machine

open Sys2Proof

/-! ### PATROL_SCRUB -/

/-- The 64-byte line of an address. -/
def lineOf (a : Nat) : Nat := a / 64 * 64

/-- The words of a line in error. -/
def lineHits (m : Mem) (a : Nat) : List (Nat × Bool) :=
  (correctedWords m a 64).map (fun w => (8 * w, false)) ++ (badWords m a 64).map fun w => (8 * w, true)

/-- The corrected words of a line written back. -/
def writeBack (m : Mem) (a : Nat) : Mem := (correctedWords m a 64).foldl settleWord m

/-- One line read by scrub, with the write-back dropped where a newer write came (R150). -/
def scrubLine (s : State) (a : Nat) (overwritten : Bool) : State :=
  let hits := lineHits s.memory.ddr a
  let s := noteErrors s s.memory hits
  let s := if overwritten then s else setDdr s (writeBack s.memory.ddr a)
  checkHits s hits

/-- The device address that a logical channel keeps at byte `o` of the channel: R142 turned round. -/
def addrAt (l o : Nat) : Nat :=
  let q := o / 2048
  let h := bits q 5 0 ^^^ bits q 11 6 ^^^ bits q 17 12 ^^^ bits q 23 18 ^^^ bits q 24 24
  (q * 72 + (l + 144 - h) % 72) * 2048 + o % 2048

/-- The words of a spare's line in error: below the copy pointer the copy of the source, where words that were
uncorrectable are poison (R152, R153); elsewhere its own. -/
def spareHits (s : State) (d o : Nat) : List (Nat × Bool) :=
  let sp := spareAt s d
  if o < copyPtr s sp then
    (badWords s.memory.ddr (addrAt (logicalOf (10 * d + sp.pos)) o) 64).map fun w => (w, true)
  else
    let m : Mem := { flips := sp.flips }
    (correctedWords m o 64).map (fun w => (w, false)) ++ (badWords m o 64).map fun w => (w, true)

/-- A line of a spare that no logical channel uses yet, read by scrub: the score is the spare's own (R150,
R151). -/
def scrubSpare (s : State) (d o : Nat) (overwritten : Bool) : State :=
  let sp := spareAt s d
  if sp.progress = 100 then s
  else
    let hits := spareHits s d o
    let c := 10 * d + 9
    let n := (hits.filter fun h => !h.2).length
    let s := hits.foldl (fun s h => setChan s c (scoreChan (chanAt s c) h.2)) s
    let s := { s with memory := { s.memory with
      ceWin := if n = 0 then s.memory.ceWin else s.memory.ceWin.add (now s) n } }
    let s := if overwritten ∨ o < copyPtr s sp then s
      else setSpare s d { sp with flips := (writeBack { flips := sp.flips } o).flips }
    if hits = [] then s else checkChannel s c

/-- PATROL_SCRUB (R150). -/
def execPatrolScrub (addr : ScrubAt) (overwritten : Bool) (s : State) : Out :=
  .next (if s.memory.scrubEn && s.memory.zeroed then
      match addr with
      | .mapped a => if a < ddrEnd then scrubLine s (lineOf a) overwritten else s
      | .spare d o => if d < 8 ∧ o < 2 ^ 36 then scrubSpare s d (lineOf o) overwritten else s
    else s)

/-! ### CHANNEL_SCORE_HALVING -/

/-- Ticks between halvings. -/
def halvingTicks : Nat := 2 ^ 32

/-- CHANNEL_SCORE_HALVING (R151). -/
def execChannelScoreHalving (s : State) : Out :=
  .next (if s.tick.running then
      let t := s.memory.halvedAt + halvingTicks
      let s := advance s t
      { s with memory := { s.memory with
        chans := (List.range 80).foldl (fun m c => upd {} m c fun x =>
          { x with score := x.score / 2, ue := 0 }) s.memory.chans
        halvedAt := t } }
    else s)

/-! ### COPY_OUT_REMAP -/

/-- What copy-out makes of the channel at logical channel `l`: corrected words come clean, uncorrectable
ones go in poison encoding (R153). -/
def copiedFlips (m : Mem) (l : Nat) : Mem :=
  let mine := m.flips.filter fun p => chanOf (8 * p.1) == l
  let m := (mine.filter fun p => (eccRead p.2).1 != .bad).foldl (fun m p => settleWord m p.1) m
  (mine.filter fun p => (eccRead p.2).1 == .bad).foldl (fun m p => memPoison m p.1) m

/-- The words that copy-out reads in error on logical channel `l`. -/
def copyHits (m : Mem) (l : Nat) : List (Nat × Bool) :=
  (m.flips.filter fun p => chanOf (8 * p.1) == l && (eccRead p.2).1 != .clean).map fun p =>
    (8 * p.1, (eccRead p.2).1 == .bad)

/-- The last line is copied, and the spare serves the channel (R154). DESIGN CHOICE (log 101): what copy-out reads in
error is scored here, and not line by line (R153). -/
def remapChannel (s : State) (d : Nat) : State :=
  let sp := spareAt s d
  let c := 10 * d + sp.pos
  let l := logicalOf c
  let hits := copyHits s.memory.ddr l
  let s := noteErrors s s.memory hits
  let s := setDdr s (copiedFlips s.memory.ddr l)
  let s := setSpare s d { sp with state := if sp.state = 1 then 2 else sp.state, progress := 100, flips := [] }
  checkChannel (postEvent s evRemapped c) c

/-- COPY_OUT_REMAP (R154): the last line of the copy is written. A die marked EXHAUSTED during its copy finishes
it. -/
def execCopyOutRemap (d : Nat) (s : State) : Out :=
  .next (if d < 8 ∧ copying (spareAt s d) then remapChannel (advance s ((spareAt s d).since + copyTicks)) d
    else s)

/-! ### GRANULE_REPAIR_COMPLETE -/

/-- The descriptors stalled on a granule: the tick of issue, the core, the engine. -/
def stalledOn (s : State) (g : Nat) : List (Nat × Nat × Nat) :=
  s.cores.flatMap fun p => p.2.dma.flatMap fun e =>
    (e.2.filter fun op => op.stall == some g).map fun op => (op.issued, p.1, e.1)

/-- One more of them put in its place in issue order; of one tick, by core and engine. -/
def insertIssued (x : Nat × Nat × Nat) : List (Nat × Nat × Nat) → List (Nat × Nat × Nat)
  | [] => [x]
  | y :: ys => if y.1 ≤ x.1 then y :: insertIssued x ys else x :: y :: ys

/-- An engine whose descriptor was stalled on a granule goes on. -/
def releaseOp (s : State) (g v eng : Nat) : State :=
  let c := coreAt s v
  let free := fun (op : DmaOp) => if op.stall = some g then { op with stall := none } else op
  pumpDma 16 (setCore s v { c with dma := upd [] c.dma eng fun l => l.map free }) v eng

/-- Every descriptor stalled on a granule released, in issue order (R158). -/
def resumeAll (s : State) (g : Nat) : State :=
  ((stalledOn s g).foldl (fun l x => insertIssued x l) []).foldl (fun s x => releaseOp s g x.2.1 x.2.2) s

/-- A granule rewritten. -/
def rewriteGranule (s : State) (g : Nat) (bs : List Byte) : State :=
  let s := ddrWrite s g (bs.take 2048)
  { s with memory := { s.memory with repaired := g :: s.memory.repaired.filter (· != g) } }

/-- GRANULE_REPAIR_COMPLETE (R158). -/
def execGranuleRepairComplete (addr : Nat) (bytes : List Byte) (s : State) : Out :=
  .next (if (kindAt s.memory addr = some 0 ∨ kindAt s.memory addr = some 2) ∧ bytes.length = 2048 then
      resumeAll (rewriteGranule s (granule addr) bytes) (granule addr)
    else s)

end Sys2Proof.Machine
end

