-- ==== Sys2Proof/Machine/PacketOps.lean ====
section
/-! DEFINITION. Packets received: data to the mesh, requests answered, responses, windows and collectives (12 R383 to R392; 10 R317, R318). -/

namespace Sys2Proof.Machine

open Sys2Proof

/-! ### Collectives (R392) -/

/-- A contribution that arrives at this device's engine (R392). -/
def takeContribution (s : State) (id rank : Nat) (bs : List Byte) : State :=
  match collOf s id with
  | some c =>
    if rank < max 1 (collSize s c) ∧ bs.length = contribBytes c then
      settleStroke (finishColl (addContribution s id rank bs) c)
    else s
  | none => s

/-! ### DATA (R384, R389) -/

/-- Where a message's packets gather: by source, core, slot and VC. -/
def fragKey (p : Packet) : Nat := (((p.src * 64 + p.vx) * 64 + p.vy) * 4096 + p.slot) * 8 + p.vc

/-- A whole message put on the mesh. -/
def deliverMessage (s : State) (p : Packet) (bs : List Byte) (wins : List (Nat × Nat)) : State :=
  match coreOfXY s p.vx p.vy with
  | some v => { s with transit := s.transit ++
      [{ dst := v, slot := p.slot, src := .device p.src, len := bs.length / 64, data := bs, wins := wins }] }
  | none => s

/-- The packets of a message gathered up to the last; then `done` takes its bytes and the windows it holds. -/
def gather (s : State) (p : Packet) (done : State → List Byte → List (Nat × Nat) → State) : State :=
  let k := fragKey p
  let bs := look [] s.fab.frags k ++ p.data
  let ws := look [] s.fab.fragWins k ++ (if p.vc = 1 ∨ p.ptype ≠ 1 then [] else [(p.vc, p.len)])
  let keep := fun (s : State) (b : List Byte) (w : List (Nat × Nat)) =>
    { s with fab := { s.fab with frags := put [] s.fab.frags k b, fragWins := put [] s.fab.fragWins k w } }
  if p.lastPkt then done (keep s [] []) bs ws else keep s bs ws

/-- A DATA packet for a core of this device. -/
def takeData (s : State) (p : Packet) : State := gather s p fun s bs ws => deliverMessage s p bs ws

/-- The rank in a collective of the device that a packet comes from. -/
def collSource (s : State) (c : CollEntry) (d : Nat) : Option Nat := (collDevices s c).findIdx? (· == d)

/-- A packet of another device's contribution, for an engine of this one; on VC1 it goes on round (R392; log
31). -/
def takeColl (s : State) (p : Packet) : State :=
  if p.src = s.fab.id then s
  else
    let s := match flowLink s p.slot with
      | some n => if p.vc = 1 then putOnLink s p n (0x4000 + p.slot) else s
      | none => s
    gather s p fun s bs ws =>
      let s := sendWindows s p.src ws
      match collOf s p.slot with
      | some c => match collSource s c p.src with
        | some r => if collReceives s c then takeContribution s c.id r bs else s
        | none => s
      | none => s

/-! ### Requests (R383) -/

/-- STATUS of a refused or failed access (packet header). -/
def accessStatus (f : Flt) : Nat := if f.code = fcProtect then 2 else if f.code = fcUncorr then 3 else 1

/-- The bytes of a checked read of this device's memory for another device; words in error count. While DDR is
being zeroed it is refused (14 R463). DESIGN CHOICE (log 13): as out of range. -/
def rimRead (s : State) (a n : Nat) : Except Nat (List Byte) × State :=
  match checkDev s.memory a n false with
  | some f => (.error (accessStatus f), s)
  | none =>
    if a < ddrEnd ∧ ddrHeld s then (.error 1, s)
    else if farLo ≤ a then
      match farRead { ex := { core := {} }, mem := s.memory, host := s.host } (farPieces a n) with
      | .ok bs _ => (.ok bs, s)
      | _ => (.error 3, s)
    else
      let bad := badWords s.memory.ddr a n
      let hits := (correctedWords s.memory.ddr a n).map (fun w => (8 * w, false)) ++
        bad.map fun w => (8 * w, true)
      let bs := memGet s.memory.ddr a n
      let share := if shareLo ≤ a ∧ a < ddrEnd then [(a, n, false)] else []
      let s := backInvalidate (noteErrors s s.memory hits) share
      let s := checkHits s hits
      (if bad = [] then .ok bs else .error 3, s)

/-- The region table as a WRITE_REQ meets it: WP guards only against core DMA (R285). -/
def withoutWp (m : Memory) : Memory :=
  { m with regions := m.regions.map fun p => (p.1, { p.2 with wp := false }) }

/-- A checked write of this device's memory for another device. -/
def rimWrite (s : State) (a : Nat) (bs : List Byte) : Option Nat × State :=
  match checkDev (withoutWp s.memory) a bs.length true with
  | some f => (some (accessStatus f), s)
  | none =>
    if a < ddrEnd ∧ ddrHeld s then (some 1, s)
    else
    let d := devWrite { ex := { core := {} }, mem := s.memory, host := s.host } a bs
    (none, backInvalidate { s with memory := d.mem, host := d.host } d.share)

/-- The answer to a request: to its source, with its tag. -/
def answerPacket (s : State) (p : Packet) (ptype status : Nat) (bs : List Byte) : State :=
  inject s { vc := p.vc, pkey := s.fab.pkey, ptype := ptype, dst := p.src, src := s.fab.id
             tag := p.tag, epoch := p.epoch, len := bs.length, status := status, data := bs }

/-- A READ_REQ for this device. -/
def takeReadReq (s : State) (p : Packet) : State :=
  match rimRead s p.addr p.len with
  | (.ok bs, s) => answerPacket s p 3 0 bs
  | (.error e, s) => answerPacket s p 3 e []

/-- A WRITE_REQ for this device: what is written is acknowledged to the source's window. -/
def takeWriteReq (s : State) (p : Packet) : State :=
  let (e, s) := rimWrite s p.addr p.data
  let s := if p.vc = 1 then s else sendWindows s p.src [(p.vc, p.len)]
  answerPacket s p 5 (e.getD 0) []

/-- A response: it settles the tag that it names, or comes late (R390). -/
def takeResponse (s : State) (p : Packet) : State :=
  let t := tagAt s p.tag
  if t.busy ∧ t.epoch = p.epoch then
    releaseReqs (settleReqs (setTag s p.tag { t with busy := false, result := some p.status, data := p.data }))
  else { s with fab := { s.fab with lateResp := satInc 16 s.fab.lateResp } }

/-- A WINDOW packet: space of the class that SLOT names is free again (R389). -/
def takeWindow (s : State) (p : Packet) : State :=
  let k := windowKey p.src (p.slot % 8)
  let u := look 0 s.fab.used k - p.len
  releaseWaiting { s with fab := { s.fab with
    used := put 0 s.fab.used k u
    hops := if u = 0 then put 0 s.fab.hops k 0 else s.fab.hops } }

/-- A packet at its destination, by type. Management messages are commands of their own. -/
def takePacket (s : State) (p : Packet) : State :=
  match p.ptype with
  | 1 => if p.vx = 0x3F then takeColl s p else takeData s p
  | 2 => takeReadReq s p
  | 3 => takeResponse s p
  | 4 => takeWriteReq s p
  | 5 => takeResponse s p
  | 7 => takeColl s p
  | 8 => takeWindow s p
  | _ => s

/-- A packet command: dropped where its key is foreign, its version unknown, or another device is meant. -/
def packetIn (s : State) (p : Packet) (ptype : Nat) : State :=
  if foreignKey s p.vc p.pkey then countForeign s
  else if p.version ≠ 1 ∨ p.dst ≠ s.fab.id ∨ p.discard then countDrop s none
  else takePacket s { p with ptype := ptype }

/-! ### Forwarding (R384, R386, R387) -/

/-- The flits of the packet at the head of a queue: up to LAST, ONLY or one with DISCARD. -/
def headPacket : List TxFlit → Option (List TxFlit × List TxFlit)
  | [] => none
  | f :: r =>
    if f.kind = 3 ∨ f.kind = 4 ∨ f.discard then some ([f], r)
    else match headPacket r with
      | some (a, b) => some (f :: a, b)
      | none => none

/-- The link in whose transmit table an entry stands. -/
def txLinkOf (s : State) (e : Nat) : Option Nat :=
  (s.fab.txNow.find? fun p => p.2.toNat == e).map (·.1 / 120)

/-- The transmit slot entry that names an arriving link and slot. -/
def forwardEntry (n slot : Nat) : Nat := 0x8000 + n % 64 * 2 ^ 8 + slot % 128

/-- Flits passed on to a link, where it takes them. -/
def passOn (s : State) (n m vc : Nat) (fs : List TxFlit) : State :=
  if passesOn (linkAt s m) vc then updLink s m fun l => enqueue l vc fs else countDrop s (some n)

/-- A scheduled packet, by the receive slot of its first flit. -/
def routeScheduled (s : State) (n : Nat) (fs : List TxFlit) (p : Packet) : State :=
  let slot := (fs.headD {}).flow
  match bits (look 0 s.fab.rxNow (120 * n + slot)).toNat 15 14 with
  | 1 => takePacket s p
  | 2 => match txLinkOf s (forwardEntry n slot) with
    | some m => passOn s n m 1 (fs.map fun f => { f with flow := forwardEntry n f.flow, isOwn := false })
    | none => countDrop s (some n)
  | _ => countDrop s (some n)

/-- The flits with the first 32 bytes rewritten for the packet's new STAGE. -/
def withHeader (fs : List TxFlit) (p : Packet) : List TxFlit :=
  match fs with
  | f :: r => { f with data := packetHeader p ++ f.data.drop 32 } :: r
  | [] => []

/-- An unscheduled packet (R386). -/
def routeUnscheduled (s : State) (n : Nat) (fs : List TxFlit) (p : Packet) : State :=
  let p := stageAt s.fab.id p
  match nextHop (commonOf s) s.fab.id p with
  | .deliver => takePacket s p
  | .link m => passOn s n m p.vc ((withHeader fs p).map fun f => { f with isOwn := false })
  | .lost => countDrop s (some n)

/-- The packet at the head of a receive queue handled, and its buffers freed. -/
def forwardPacket (s : State) (n vc : Nat) : State :=
  match headPacket (look [] (linkAt s n).rx vc) with
  | none => s
  | some (fs, rest) =>
    let s := updLink s n fun l => fs.foldl freeFlit { l with rx := put [] l.rx vc rest }
    let p := packetOf vc (fs.headD {}).pkey (fs.flatMap (·.data))
    if (fs.any (·.discard)) || p.version != 1 then countDrop s (some n)
    else if vc = 1 then routeScheduled s n fs p
    else routeUnscheduled s n fs p

end Sys2Proof.Machine
end

