-- ==== Sys2Proof/Machine/Packets.lean ====
section
/-! DEFINITION. The packet commands, request timeouts and congestion maps (12 R383 to R393). -/

namespace Sys2Proof.Machine

open Sys2Proof

/-- PACKET_FORWARD (R386). -/
def execPacketForward (n vc : Nat) (s : State) : Out :=
  .next (if n < linkCount ∧ vc < 8 then forwardPacket s n vc else s)

/-- DATA (R384). -/
def execData (p : Packet) (s : State) : Out := .next (packetIn s p 1)

/-- READ_REQ (R383). -/
def execReadReq (p : Packet) (s : State) : Out := .next (packetIn s p 2)

/-- WRITE_REQ (R383). -/
def execWriteReq (p : Packet) (s : State) : Out := .next (packetIn s p 4)

/-- READ_RESP (R390). -/
def execReadResp (p : Packet) (s : State) : Out := .next (packetIn s p 3)

/-- WRITE_ACK (R390). -/
def execWriteAck (p : Packet) (s : State) : Out := .next (packetIn s p 5)

/-- WINDOW (R389). -/
def execWindow (p : Packet) (s : State) : Out := .next (packetIn s p 8)

/-- COLL (R392). -/
def execColl (id rank : Nat) (bytes : List Byte) (s : State) : Out :=
  .next (takeContribution s id rank bytes)

/-- REQUEST_TIMEOUT (R390). -/
def execRequestTimeout (tag : Nat) (s : State) : Out :=
  .next (if (tagAt s tag).busy then
      releaseReqs (settleReqs (failTag (advance s ((tagAt s tag).since + 2 ^ s.fab.timeout)) tag stTimeout))
    else s)

/-! ### Congestion maps (R393, R403) -/

/-- Ticks of an interval. -/
def mapTicks : Nat := 2 ^ 20

/-- The state codes of links. -/
def linkCode : LinkState → Nat
  | .off => 0
  | .training => 1
  | .discovery => 2
  | .quarantine => 3
  | .up => 4
  | .retrain => 5
  | .fenced => 6
  | .down => 7

/-- A count of flits in 1/255 of an interval's slots. -/
def utilOf (n : Nat) : Nat := min 255 (255 * n / 2048000)

/-- The 32 bytes of link `n`. -/
def mapLink (s : State) (n : Nat) : List Byte :=
  let c := look {} s.fab.cong n
  let l := linkAt s n
  ((List.range 8).map fun v => BitVec.ofNat 8 (utilOf (look 0 c.sent v))) ++
  ((List.range 4).flatMap fun i => leBytes 2 (look 0 c.stall i)) ++
  leBytes 8 (c.resent + c.bad * 2 ^ 16 + c.drops * 2 ^ 32 + linkCode l.state * 2 ^ 48 + l.reason * 2 ^ 52) ++
  leBytes 8 (min c.poolMin l.pool % 2 ^ 12)

/-- Scheduled and unscheduled flits of link `n`. -/
def schedOf (s : State) (n : Nat) : Nat := look 0 (look {} s.fab.cong n).sent 1
def unschedOf (s : State) (n : Nat) : Nat :=
  ((look {} s.fab.cong n).sent.map fun p => if p.1 = 1 then 0 else p.2).foldl (· + ·) 0

/-- Mean and highest of a list, in 1/255 of the slots. -/
def meanMax (l : List Nat) : Nat :=
  utilOf (l.foldl (· + ·) 0 / max 1 l.length) + utilOf (l.foldl max 0) * 2 ^ 8

/-- The 32 bytes of a level of links. -/
def mapLevel (s : State) (ns : List Nat) : List Byte :=
  leBytes 32 (meanMax (ns.map (schedOf s)) + meanMax (ns.map (unschedOf s)) * 2 ^ 16)

/-- The map record of interval `k`. -/
def mapRecord (s : State) (k : Nat) : List Byte :=
  leBytes 8 (0x01 + s.fab.pkey % 2 ^ 16 * 2 ^ 8 + s.fab.id % 2 ^ 24 * 2 ^ 24) ++ leBytes 8 k ++
  leBytes 8 (s.tick.stroke % 2 ^ 32 + s.fab.score * 2 ^ 32 + s.fab.congHolds * 2 ^ 48) ++
  leBytes 8 (bitsOf 32 (s.fab.minMargin.getD s.tick.margin) + s.fab.congForeign * 2 ^ 32) ++
  List.replicate 32 0 ++ (List.range linkCount).flatMap (mapLink s) ++
  mapLevel s (List.range 7) ++ mapLevel s ((List.range 7).map (7 + ·)) ++
  mapLevel s ((List.range 22).map (14 + ·)) ++ leBytes 32 (Config.bridgeUse k).toNat

/-- A map written to the host congestion ring, over its oldest record. -/
def writeMap (s : State) (bs : List Byte) : State :=
  let n := s.fab.ringSize * 4096 / 1344
  if n = 0 then s
  else
    let s := hostWrite s (s.fab.ringBase * 4096 + 1344 * (s.fab.ringPos % n)) (bs.take 1344)
    { s with fab := { s.fab with ringPos := s.fab.ringPos + 1 } }

/-- The score loses an eighth; SUSPECT clears below half the threshold (R403). -/
def decayScore (s : State) : State :=
  let n := s.fab.score - s.fab.score / 8
  { s with fab := { s.fab with score := n, suspect := s.fab.suspect && !decide (2 * n < max 1 s.fab.thresh) } }

/-- The counters of an interval cleared. -/
def clearMap (s : State) (k : Nat) : State :=
  { s with fab := { s.fab with
    cong := [], congHolds := 0, minMargin := none, congForeign := 0, mapNo := k } }

/-- The map latched at interval `k` and sent. -/
def latchMap (s : State) (k : Nat) : State :=
  let bs := mapRecord s k
  let s := decayScore (clearMap s k)
  if s.fab.collector = 0xFFFFFF then s
  else if s.fab.collector = s.fab.id then writeMap s bs
  else sendMgmt s { dst := s.fab.collector, mtype := mtCongMap, bytes := bs }

/-- The number of the latch that comes next. -/
def nextMap (s : State) : Nat :=
  if now s % mapTicks = 0 ∧ s.fab.mapNo < now s / mapTicks then now s / mapTicks
  else max s.fab.mapNo (now s / mapTicks) + 1

/-- CONGESTION_MAP_LATCH (R393). -/
def execCongestionMapLatch (s : State) : Out :=
  .next (if s.fab.congEn && s.tick.running then
      latchMap (advance s (mapTicks * nextMap s)) (nextMap s)
    else s)

/-- CONG_MAP (R393). -/
def execCongMap (a : Auth) (map : List Byte) (s : State) : Out :=
  .next (withAuth s .any a fun s =>
    if s.fab.collector = s.fab.id ∧ map.length = 1344 then writeMap s map else s)

end Sys2Proof.Machine
end

