-- ==== Sys2Proof/Machine/Serve.lean ====
section
/-! DEFINITION. The commands of the serving engine (08 R236 to R278). -/

namespace Sys2Proof.Machine

open Sys2Proof

/-! ### Descriptors (R239, R264, R276) -/

/-- SUBMIT_REQUEST (R239). -/
def execSubmitRequest (f r : Nat) (d : BitVec 512) (args prompt resume : Fetch) (s : State) : Out :=
  .next (takeDesc s f r d dtSubmit fun s w => submit s w d args prompt resume)

/-- A cancel that is not for the next boundary completes at once. -/
def takeCancelDesc (s : State) (d : BitVec 512) (w : Asker) : State :=
  let i := bits (descWord d 0) 47 32
  let s := readTables s [i] []
  let q := reqAt s i
  if unended q && q.tag == dw (descWord d 2) && (w.fn == 0 || q.fn == w.fn) && progLive s && s.prog.step then
    { s with srv := { s.srv with
        cancels := s.srv.cancels ++ [{ who := w, kind := 2, idx := i, tag := dw (descWord d 2) }] } }
  else answerStatus s w stAlready

/-- CANCEL (R276). -/
def execCancel (f r : Nat) (d : BitVec 512) (s : State) : Out :=
  .next (takeDesc s f r d dtCancel fun s w => takeCancelDesc s d w)

/-- The tenant fields of SET_BUDGET (R421). -/
def budgetOf (d : BitVec 512) : Tenant :=
  { valid := bit (descWord d 0) 44, reject := bit (descWord d 0) 45, fn := bits (descWord d 0) 55 48
    cost := bits (descWord d 2) 15 0, rate := bits (descWord d 2) 63 32, burst := bits (descWord d 3) 31 0 }

/-- A step program runs. -/
def stepRuns (s : State) : Bool := s.prog.phase == .running && s.prog.step

/-- A budget change: at the next boundary of a running step program, else at once. -/
def takeBudget (s : State) (d : BitVec 512) (w : Asker) : State :=
  let l : Later := { who := w, kind := 7, idx := bits (descWord d 0) 43 32, ten := budgetOf d }
  let s := readTables s [] [l.idx]
  if !fnActive s l.ten.fn then answerStatus s w stFnDisabled
  else if stepRuns s then { s with srv := { s.srv with budgets := s.srv.budgets ++ [l] } }
  else
    let x := applyBudget s (now s) l
    answerStatus (if x.2 = stOK then freshTenant x.1 l.idx else s) w x.2

/-- SET_BUDGET (R264). -/
def execSetBudget (f r : Nat) (d : BitVec 512) (s : State) : Out :=
  .next (takeDesc s f r d dtBudget fun s w => takeBudget s d w)

/-! ### Work between boundaries (R241, R257) -/

/-- INTAKE_COMPLETE (R241). -/
def execIntakeComplete (req : Nat) (s : State) : Out :=
  let r := reqAt s req
  .next (if r.state = .intake ∨ r.state = .held ∧ r.resume = .intake then
      engineStep s (endIntake s req) (lookupSpans s r)
    else s)

/-- PAGE_ZEROING_COMPLETE (R257): of a page, or of a token store block, which is zeroed in the same way. -/
def execPageZeroingComplete (unit : FallowUnit) (s : State) : Out := .next (engineStep s (zeroUnit s unit) [])

/-! ### Control (R236, R259, R278) -/

/-- The engine area lies wholly inside one valid region of KIND 4. -/
def areaOk (s : State) : Bool :=
  areaBytes s != 0 && (List.range 64).any fun n =>
    let r := regionNo s.memory n
    r.live && r.kind == 4 && decide (r.lo ≤ areaAddr s ∧ areaAddr s + areaBytes s ≤ r.hi + 1)

/-- SRV_CTRL.ENABLE set. -/
def enableEngine (s : State) : State :=
  if areaOk s then { s with srv := { s.srv with enable := true } } else s

/-- SRV_ENABLE (R236). -/
def execSrvEnable (s : State) : Out := .next (enableEngine s)

/-- SRV_CTRL.ENABLE cleared. -/
def disableEngine (s : State) : State := { s with srv := { s.srv with enable := false } }

/-- SRV_DISABLE (R278). -/
def execSrvDisable (s : State) : Out := .next (disableEngine s)

/-- After a change of PAGE_TOKENS: what lay fallow stays so in the pages of the new size. -/
def renumberPages (s : State) (oldBytes : Nat) : State :=
  let n := pageCount s
  let nb := pageBytes s
  let fallow := (List.range n).filter fun p => s.srv.books.fallow.any fun q =>
    decide (q * oldBytes < (p + 1) * nb ∧ p * nb < (q + 1) * oldBytes)
  let s := updBooks s fun b => { b with freeCut := n, taken := fallow, fallow := fallow, refs := [] }
  if s.prog.step then writeNull { s with srv := { s.srv with dirty := usedBlocks s } } else s

/-- What PAGE_TOKENS and PREFIX come to hold: each field takes its value, a reserved one leaves it (16 R491; log 43). -/
def configValues (s : State) (pageTok mode : Nat) : Nat × Nat :=
  (if 4 < pageTok then s.srv.pageTok else pageTok, if 2 < mode then s.srv.pfxMode else mode)

/-- PREFIX and PAGE_TOKENS cannot be changed to these values now (R259). -/
def configRefused (s : State) (pageTok mode : Nat) : Bool :=
  configValues s pageTok mode != (s.srv.pageTok, s.srv.pfxMode) && !s.srv.books.reqs.isEmpty

/-- PREFIX and PAGE_TOKENS changed, or refused with CFG_REJECT. -/
def configEngine (s : State) (pageTok mode : Nat) : State :=
  let (pageTok, mode) := configValues s pageTok mode
  if pageTok = s.srv.pageTok ∧ mode = s.srv.pfxMode then s
  else if configRefused s pageTok mode then { s with srv := { s.srv with cfgReject := true } }
  else
    let ob := pageBytes s
    let s := updBooks s emptyPrefix
    let re := pageTok ≠ s.srv.pageTok
    let s := { s with srv := { s.srv with pageTok := pageTok, pfxMode := mode } }
    if re then renumberPages s ob else s

/-- SRV_CONFIG_CHANGE (R259). -/
def execSrvConfigChange (pageTokens mode : Nat) (s : State) : Out := .next (configEngine s pageTokens mode)

/-! ### Steps (R246, R273) -/

/-- The manifest's header, which a member of a replica set reads (R308). -/
def headerSpan (s : State) : List AreaSpan :=
  if follows s then [(manifestAddr s (s.srv.curStep + 1), 16)] else []

/-- BOUNDARY_START (R247). -/
def execBoundaryStart (s : State) : Out :=
  .next (if boundaryReady s then engineStep s (startBoundary s) (headerSpan s) else s)

/-- JOURNAL_WRITE_COMPLETE (R273). -/
def execJournalWriteComplete (s : State) : Out := .next (engineStep s (journalWritten s) [])

end Sys2Proof.Machine
end

