-- ==== Sys2Proof/Machine/Pair.lean ====
section
/-! DEFINITION. The commands of the host rings, of signed heads and of a pair (10 R323 to R336). -/

namespace Sys2Proof.Machine

open Sys2Proof

/-! ### Host rings (R324) -/

/-- HOST_RING_HEAD_WRITE (R324). -/
def execHostRingHeadWrite (impression : Bool) (count : Word) (s : State) : Out :=
  .next (if impression then { s with proofs := { s.proofs with iHead := count.toNat } }
    else { s with proofs := { s.proofs with pHead := count.toNat } })

/-! ### Heads compared (R334, R335) -/

/-- The heads of step `k` match: PAIRED in its proofs, and its completions are released. -/
def matchHead (s : State) (k : Nat) : State :=
  let s := (s.proofs.store.filter fun x => x.proof.last == k).foldl (fun s x =>
    let y := { x with proof := { x.proof with paired := true } }
    let s := updStored s x.q fun _ => y
    if y.placed then writeStored s y else s) s
  let s := { s with proofs := { s.proofs with
    matched := max s.proofs.matched k, ownHeads := s.proofs.ownHeads.filter fun h => h.1 != k
    peerHeads := s.proofs.peerHeads.filter fun h => h.1 != k } }
  let out := s.proofs.gated.filter fun d => decide (d.step ≤ k)
  let s := { s with proofs := { s.proofs with gated := s.proofs.gated.filter fun d => decide (k < d.step) } }
  settleCancelAll (out.foldl finishStep s)

/-- The pair's comparison ends. -/
def endPairing (s : State) (state : Nat) : State :=
  { s with proofs := { s.proofs with
      pairState := state, ownHeads := [], peerHeads := [], bindings := [], bindSince := none } }

/-- The partners differ at step `k`; a batch program's PROGRAM_DONE carries it. -/
def diverge (s : State) (k : Nat) : State :=
  let s := endPairing s 3
  let s := { s with proofs := { s.proofs with
    divStep := k
    waitDone := if s.prog.step then s.proofs.waitDone
      else s.proofs.waitDone.map fun d => { d with status := stDivergence } } }
  flushRings (releaseGated (postEvent s evDiverged k))

/-- Own heads compared with the partner's, in step order; at most `n` of them. -/
def compareHeads : Nat → State → State
  | 0, s => s
  | n + 1, s => match s.proofs.ownHeads with
    | (k, h, _) :: _ => match s.proofs.peerHeads.find? fun p => p.1 == k with
      | some p => if p.2 = h then compareHeads n (matchHead s k) else diverge s k
      | none => s
    | [] => s

/-- Heads compared as long as a comparison frees proofs and records to be written; at most `n` times. -/
def settleHeadsN : Nat → State → State
  | 0, s => s
  | n + 1, s =>
    if s.proofs.pairState = 1 then
      let t := compareHeads s.proofs.ownHeads.length s
      if t.proofs.matched = s.proofs.matched then t else settleHeadsN n (flushRings t)
    else s

/-- Heads compared in step order (R334), with what each match frees. -/
def settleHeads (s : State) : State := settleHeadsN (s.proofs.held.length + 2) s

/-! ### The host rings served (R324) -/

/-- One waiting proof copied, else one waiting record written, with the completions that this frees. -/
def serveRings (s : State) : State :=
  match copyOne s with
  | some s => finishDone (proofReadies s) none
  | none => match writeOne s with
    | some s => finishDone (proofReadies s) none
    | none => s

def copyNext (s : State) : State := settleHeads (serveRings s)

/-- PROOF_RING_COPY (R324). -/
def execProofRingCopy (s : State) : Out := .next (afterReads s (copyNext s))

/-! ### Signed heads (R327, R328) -/

/-- The stile signs the head that is due. -/
def signHead (s : State) : State :=
  match s.proofs.due with
  | some h =>
    if s.stl.state = 1 ∧ identityUsable s then
      let body := signedBody s h
      let r : RecOut := { bytes := body ++ signatureBytes s body, sig := true, step := h.step }
      let s := { s with free := s.free + 1, proofs := { s.proofs with
        due := none, signed := h.step, held := insertSigned r s.proofs.held } }
      settleHeads (flushRings s)
    else s
  | none => s

/-- HEAD_SIGN (R327). -/
def execHeadSign (s : State) : Out := .next (afterReads s (signHead s))

/-- STROKE_COMMIT (R190). -/
def execStrokeCommit (s : State) : Out := .next (afterReads s (settleHeads (engineStep s (commitStroke s) [])))

/-! ### Messages and time-outs (R333, R334, R336) -/

/-- What the partner sent. -/
def takePair (s : State) (m : PairMsg) : State :=
  if s.proofs.pairState ≠ 1 then s
  else match m with
    | .head k h =>
      settleHeads { s with proofs := { s.proofs with
        peerHeads := s.proofs.peerHeads.filter (fun p => p.1 != k) ++ [(k, h)] } }
    | .bindings _ _ _ _ _ =>
      { s with proofs := { s.proofs with bindings := s.proofs.bindings.filter (· != m) ++ [m] } }

/-- PAIR (R334). -/
def execPair (a : Auth) (m : PairMsg) (s : State) : Out := .next (afterReads s (withAuth s .pair a fun s => takePair s m))

/-- The partner is lost. -/
def losePartner (s : State) (k : Nat) : State :=
  flushRings (releaseGated (postEvent (endPairing s 2) evPairLost k))

/-- PAIR_HEAD_TIMEOUT (R336). -/
def execPairHeadTimeout (s : State) : Out :=
  .next (afterReads s (match s.proofs.pairState, s.proofs.ownHeads with
    | 1, (k, _, t) :: _ =>
      if s.proofs.peerHeads.any fun p => p.1 == k then s else losePartner (advance s (t + 2 ^ 28)) k
    | _, _ => s))

/-- PAIR_BINDING_TIMEOUT (R333). -/
def execPairBindingTimeout (s : State) : Out :=
  .next (afterReads s (match s.proofs.pairState, s.proofs.bindSince with
    | 1, some t => diverge (advance s (t + 2 ^ 28)) (s.srv.curStep + 1)
    | _, _ => s))

end Sys2Proof.Machine
end

