-- ==== Sys2Proof/Machine/Press.lean ====
section
/-! DEFINITION. The press and VMP instructions (03 R71 to R90). -/

namespace Sys2Proof.Machine

open Sys2Proof

/-- LOAD_TILE (R71). -/
def execLoadTile (v : Nat) (s : State) : Out := .next (unitCommand s v 0x00 runLoadTile)
/-- STREAM (R77). -/
def execStream (v : Nat) (s : State) : Out := .next (unitCommand s v 0x01 runStream)
/-- DRAIN (R81). -/
def execDrain (v : Nat) (s : State) : Out := .next (unitCommand s v 0x02 runDrain)
/-- ACC_CLEAR (R82). -/
def execAccClear (v : Nat) (s : State) : Out := .next (unitCommand s v 0x03 runAccClear)
/-- VMP_LOAD (R88). -/
def execVmpLoad (v : Nat) (s : State) : Out := .next (unitCommand s v 0x08 runVmpLoad)
/-- VMP_STREAM (R89). -/
def execVmpStream (v : Nat) (s : State) : Out := .next (unitCommand s v 0x09 runVmpStream)
/-- VMP_DRAIN (R88). -/
def execVmpDrain (v : Nat) (s : State) : Out := .next (unitCommand s v 0x0A runVmpDrain)
/-- VMP_CLEAR (R88). -/
def execVmpClear (v : Nat) (s : State) : Out := .next (unitCommand s v 0x0B runVmpClear)

end Sys2Proof.Machine
end

