-- ==== Sys2Proof/Machine/ImageOps.lean ====
section
/-! DEFINITION. The program image: its fields, the load checks, and what a load writes (07 R221 to R231; 08 R237, R242, R243; 10 R337, R338; 13 R426, R427). -/

namespace Sys2Proof.Machine

open Sys2Proof

/-! ### Fields of an image (R221) -/

/-- Word `i` of the image, and bits of it. -/
def imgWord (im : List Byte) (i : Nat) : Nat := leNat ((im.drop (8 * i)).take 8)
def imgBits (im : List Byte) (i hi lo : Nat) : Nat := bits (imgWord im i) hi lo

def imgVersion (im : List Byte) : Nat := imgBits im 0 39 32
def imgGrid (im : List Byte) : Nat := imgBits im 0 59 56
def imgStep (im : List Byte) : Bool := bit (imgWord im 0) 60
def imgExplain (im : List Byte) : Bool := bit (imgWord im 0) 61
def imgBytes (im : List Byte) : Nat := imgBits im 1 47 0
def imgDevices (im : List Byte) : Nat := imgBits im 2 23 0
def imgShapes (im : List Byte) : Nat := imgBits im 2 31 24
def imgCores (im : List Byte) : Nat := imgBits im 2 47 32
def imgStrokes (im : List Byte) : Nat := imgBits im 3 31 0
def imgProfiles (im : List Byte) : Nat := imgBits im 3 39 32 + 1
def imgRegions (im : List Byte) : Nat := imgBits im 3 45 40
def imgRoutes (im : List Byte) : Nat := imgBits im 4 15 0
def imgGroups (im : List Byte) : Nat := imgBits im 4 31 16

/-- The offset of section `k`: 0 strokes, 1 profiles, 2 core directory, 3 routes, 4 groups, 5 regions. -/
def imgOff (im : List Byte) (k : Nat) : Nat := imgBits im (5 + k) 47 0

/-- Entry `i` of section `k`, of `n` bytes. -/
def imgEntry (im : List Byte) (k n i : Nat) : List Byte := (im.drop (imgOff im k + n * i)).take n

/-- The digest in the header, and the one computed (R221). -/
def imgDigest (im : List Byte) : Digest := digestOfBytes ((im.drop 96).take 32)
def imgComputed (im : List Byte) : Digest := sha256 (im.take 96 ++ List.replicate 32 0 ++ im.drop 128)

/-! ### Section entries (R223 to R227) -/

/-- Word `i` of an entry. -/
def entWord (e : List Byte) (i : Nat) : Nat := imgWord e i

def strokeOf (e : List Byte) : StrokeEnt :=
  { budget := bits (entWord e 0) 31 0, slack := bits (entWord e 0) 63 32, rpt := bits (entWord e 1) 31 0
    profile := bits (entWord e 1) 39 32, checkpoint := bit (entWord e 1) 40, commit := bit (entWord e 1) 41 }

def routeOf (e : List Byte) : Route :=
  let w := entWord e 0
  { device := bits w 23 0, vx := bits w 29 24, vy := bits w 35 30, via := bits w 46 36, vc := bits w 49 47 }

def groupOf (e : List Byte) : BitVec 1280 := BitVec.ofNat 1280 (leNat e)

/-- The region that a record names. -/
def regionOf (e : List Byte) : Region :=
  { valid := true, kind := bits (entWord e 0) 2 0, slot := bits (entWord e 0) 5 3
    base := bits (entWord e 1) 47 21, limit := bits (entWord e 2) 47 21 }

/-- ROOT of a region record. -/
def regionRoot (e : List Byte) : Digest := digestOfBytes (e.drop 32)

def imgStrokeTable (im : List Byte) : List StrokeEnt :=
  (List.range (imgStrokes im)).map fun i => strokeOf (imgEntry im 0 16 i)
def imgProfileTable (im : List Byte) : List (List Byte) :=
  (List.range (imgProfiles im)).map fun i => imgEntry im 1 640 i
def imgCoreDir (im : List Byte) : List (List Byte) :=
  (List.range (imgCores im)).map fun i => imgEntry im 2 32 i
def imgRouteTable (im : List Byte) : List (List Byte) :=
  (List.range (imgRoutes im)).map fun i => imgEntry im 3 8 i
def imgGroupTable (im : List Byte) : List (List Byte) :=
  (List.range (imgGroups im)).map fun i => imgEntry im 4 160 i
def imgRegionTable (im : List Byte) : List (List Byte) :=
  (List.range (imgRegions im)).map fun i => imgEntry im 5 64 i

/-- CODE_END and DESCS of a core. -/
def codeEndOf (e : List Byte) : Nat := bits (entWord e 0) 16 0
def descsOf (e : List Byte) : Nat := bits (entWord e 0) 31 17

/-! ### The step table (R242) -/

/-- The step table's bytes. -/
def imgStepTable (im : List Byte) : List Byte := im.drop (imgBytes im - 64 * (imgShapes im + 1))

def shapeOf (e : List Byte) : Shape :=
  { d := bits (entWord e 0) 15 0, p := bits (entWord e 0) 31 16, a := bits (entWord e 0) 35 32
    first := bits (entWord e 1) 31 0, entries := bits (entWord e 1) 63 32, entry := bits (entWord e 2) 15 0
    ticks := entWord e 3, scrub := bits (entWord e 4) 47 0 }

def shapeBytes (im : List Byte) : List (List Byte) :=
  (List.range (imgShapes im)).map fun i => ((imgStepTable im).drop (64 * (i + 1))).take 64

def stepTableOf (im : List Byte) : StepTable :=
  let h := imgStepTable im
  { chunk := imgBits h 1 15 0, attr := imgBits h 1 31 16, contextMax := imgBits h 1 52 32
    kvBytes := imgBits h 2 31 0, result := imgBits h 3 47 0, scores := imgBits h 4 47 0
    stride := imgBits h 5 31 0, shapes := (shapeBytes im).map shapeOf }

/-! ### Check 5: counts, ranges and reserved fields (R221 to R227) -/

/-- Every word of a list of (word, reserved bits) has those bits zero. -/
def reservedOk (e : List Byte) (l : List (Nat × Nat)) : Bool := l.all fun p => entWord e p.1 &&& p.2 == 0

/-- `n` bytes from `off` on lie inside the image. -/
def insideImage (im : List Byte) (off n : Nat) : Bool := off % 64 == 0 && decide (off + n ≤ imgBytes im)

/-- Reserved fields of the header, and the places of the sections. -/
def headerOk (im : List Byte) : Bool :=
  reservedOk im ([(0, span 63 62), (1, span 63 48), (2, span 63 48), (3, span 63 46), (4, span 63 32),
    (5, span 63 48), (6, span 63 48), (7, span 63 48), (8, span 63 48), (9, span 63 48), (10, span 63 48),
    (11, wordBits)] ++ (List.range 16).map fun i => (16 + i, wordBits)) &&
  (imgGrid im == 1 || imgGrid im == 2) && imgCores im == gridCores (imgGrid im) &&
  decide (1 ≤ imgDevices im ∧ imgDevices im ≤ 10240 ∧ 1 ≤ imgStrokes im ∧ imgStrokes im ≤ 65536 ∧
    imgRoutes im ≤ 4096 ∧ imgGroups im ≤ 4096) &&
  (if imgStep im then decide (1 ≤ imgShapes im ∧ imgShapes im ≤ 8) else imgShapes im == 0) &&
  insideImage im (imgOff im 0) (16 * imgStrokes im) && insideImage im (imgOff im 1) (640 * imgProfiles im) &&
  insideImage im (imgOff im 2) (32 * imgCores im) && insideImage im (imgOff im 3) (8 * imgRoutes im) &&
  insideImage im (imgOff im 4) (160 * imgGroups im) && insideImage im (imgOff im 5) (64 * imgRegions im)

/-- A core directory entry (R223). -/
def coreDirOk (im e : List Byte) : Bool :=
  let ce := codeEndOf e
  let pb := bits (entWord e 3) 56 32
  let dst := bits (entWord e 3) 24 0
  reservedOk e [(0, span 63 32), (1, span 63 48), (2, span 63 48), (3, span 31 25 + span 63 57)] &&
  decide (ce % 8 = 0 ∧ 8 ≤ ce ∧ ce ≤ 65536 ∧ descsOf e ≤ (65536 - ce) / 8) &&
  insideImage im (bits (entWord e 1) 47 0) (8 * ce + 64 * descsOf e) &&
  (pb == 0 || insideImage im (bits (entWord e 2) 47 0) pb) &&
  decide (dst % 64 = 0 ∧ pb % 64 = 0 ∧ dst + pb ≤ 2 ^ 25)

/-- A stroke table entry (R185, R224). -/
def strokeOk (im e : List Byte) : Bool :=
  let x := strokeOf e
  reservedOk e [(1, span 63 42)] &&
  decide (8192 ≤ x.budget ∧ 3 * x.budget ≤ 100 * x.slack ∧ x.slack ≤ x.budget ∧ x.profile < imgProfiles im) &&
  (imgStep im || !x.commit)

/-- A power profile: its unused bytes are zero. -/
def profileOk (im e : List Byte) : Bool := (e.drop (imgCores im / 2)).all (· == 0)

/-- A route entry (R225). -/
def routeOk (im e : List Byte) : Bool :=
  let x := routeOf e
  reservedOk e [(0, span 63 50)] && x.vc != 0 &&
  decide (x.vx < gridCols (imgGrid im) ∧ x.vy < gridRows (imgGrid im) ∨ x.vx = 0x3F ∧ x.vy ≤ 3)

/-- A multicast group (R226). -/
def groupOk (im e : List Byte) : Bool := (groupOf e >>> imgCores im) == 0

/-- A region record (R227). -/
def regionOk (e : List Byte) : Bool :=
  let r := regionOf e
  reservedOk e [(0, span 63 6), (1, span 20 0 + span 63 48), (2, span 63 48), (3, wordBits)] &&
  bits (entWord e 2) 20 0 == 2 ^ 21 - 1 && decide (r.kind ≤ 4 ∧ r.base ≤ r.limit ∧ r.hi < ddrEnd) &&
  (r.kind == 0 || r.slot == 0) && (r.kind == 0 || r.kind == 2 || regionRoot e == 0)

/-- Records that create a region, and those that bind one. -/
def creates (e : List Byte) : Bool := (regionOf e).kind != 0 && (regionOf e).kind != 2
def createdRegions (im : List Byte) : List Region :=
  ((imgRegionTable im).filter creates).map fun e => { regionOf e with created := true }
def boundRegions (im : List Byte) : List Region := ((imgRegionTable im).filter (! creates ·)).map regionOf

/-- `n` bytes from address `a` lie in a WORKSPACE region that the image creates. -/
def inWorkspace (im : List Byte) (a n : Nat) : Bool :=
  (createdRegions im).any fun r => r.kind == 3 && r.holds a && decide (a + n ≤ r.hi + 1)

/-- Bytes of the largest result array (R252), and of the scores of the most attribution slots (R272). -/
def resultSpan (t : StepTable) : Nat :=
  (t.shapes.map fun x => 4 * (x.d + x.p / max 1 t.chunk + x.a)).foldl max 0
def scoreSpan (t : StepTable) : Nat := (t.shapes.map fun x => x.a * t.stride).foldl max 0

/-- A shape record and its run (R242, R243). -/
def shapeOk (im e : List Byte) : Bool :=
  let x := shapeOf e
  let t := stepTableOf im
  let run := ((imgStrokeTable im).drop x.first).take x.entries
  reservedOk e [(0, span 63 36), (2, span 63 16), (4, span 63 48), (5, wordBits), (6, wordBits), (7, wordBits)] &&
  decide (x.d ≤ 32768 ∧ x.d + x.p ≤ 32768 ∧ x.a ≤ 8 ∧ 1 ≤ x.entries ∧ x.first + x.entries ≤ imgStrokes im) &&
  x.p % max 1 t.chunk == 0 &&
  (match run.getLast? with
    | some l => l.rpt == 0 && l.commit
    | none => false) &&
  run.dropLast.all (fun y => !y.commit) && (imgCoreDir im).all (fun c => decide (x.entry < codeEndOf c)) &&
  x.ticks == (run.map fun y => y.budget * (y.rpt + 1)).foldl (· + ·) 0

/-- Every stroke table entry is in exactly one run. -/
def runsCover (im : List Byte) : Bool :=
  let xs := (stepTableOf im).shapes
  (xs.map (·.entries)).foldl (· + ·) 0 == imgStrokes im &&
  (List.range xs.length).all fun i => (List.range i).all fun j =>
    let x := nth {} xs i
    let y := nth {} xs j
    decide (x.first + x.entries ≤ y.first ∨ y.first + y.entries ≤ x.first)

/-- The step table (R242, R243). -/
def stepTableOk (im : List Byte) : Bool :=
  let h := imgStepTable im
  let t := stepTableOf im
  decide (64 * (imgShapes im + 1) + 256 ≤ imgBytes im) &&
  reservedOk h [(0, span 63 48), (1, span 63 53), (2, span 63 32), (3, span 63 48), (4, span 63 48),
    (5, span 63 32), (6, wordBits), (7, wordBits)] &&
  imgBits h 0 31 0 == 0x50455453 && imgBits h 0 39 32 == 1 && imgBits h 0 47 40 == imgShapes im &&
  (List.range 7).any (fun k => t.chunk == 256 * 2 ^ k) && t.attr % max 1 t.chunk == 0 &&
  decide (t.contextMax ≤ 1048576) && t.kvBytes % 64 == 0 && inWorkspace im t.result (resultSpan t) &&
  inWorkspace im t.scores (scoreSpan t) &&
  (shapeBytes im).all (shapeOk im) && runsCover im

/-- Check 5. -/
def formOk (im : List Byte) : Bool :=
  headerOk im && (imgCoreDir im).all (coreDirOk im) &&
  ((List.range (imgStrokes im)).all fun i => strokeOk im (imgEntry im 0 16 i)) &&
  (imgProfileTable im).all (profileOk im) && (imgRouteTable im).all (routeOk im) &&
  (imgGroupTable im).all (groupOk im) && (imgRegionTable im).all regionOk &&
  (!imgStep im || stepTableOk im)

/-! ### The other checks (R21, R218, R228) -/

/-- Check 4: the image's grid runs on the effective grade. -/
def gridOk (s : State) (im : List Byte) : Bool :=
  s.die.effGrade != 0xF && !(imgGrid im == 1 && s.die.effGrade == 2)

/-- Check 6: the first profile and heath that declare more than 256 tokens. -/
def overDeclared (im : List Byte) : Option (Nat × Nat) :=
  ((List.range (imgProfiles im)).flatMap fun p => (List.range 48).map fun h => (p, h)).find? fun x =>
    decide (256 < heathTokens (imgGrid im) (imgCores im) (imgEntry im 1 640 x.1) x.2)

/-- The adapter table digest (R297). -/
def adapterTable (s : State) : Digest :=
  sha256 ((List.range 1024).flatMap fun n =>
    let x := adapterAt s n
    if x.state = .live ∨ x.state = .retiring then digestBytes x.digest else List.replicate 32 0)

/-- A record that binds matches a resident region. -/
def bindOk (s : State) (e : List Byte) : Bool :=
  let r := regionOf e
  let same := (List.range 63).any fun n =>
    let x := regionNo s.memory n
    x.live && x.kind == r.kind && (r.kind == 2 || x.slot == r.slot) && x.base == r.base && x.limit == r.limit
  let st := (slotAt s r.slot).state
  let root := if r.kind = 0 then (slotAt s r.slot).root else adapterTable s
  same && (r.kind == 2 || st == .resident || st == .swapping || st == .failed) &&
  (regionRoot e == 0 || regionRoot e == root)

/-- Two regions share a byte. -/
def overlap (a b : Region) : Bool := decide (a.base ≤ b.limit ∧ b.base ≤ a.limit)

/-- Regions of a list do not overlap each other. -/
def disjointRegions : List Region → Bool
  | [] => true
  | r :: rs => rs.all (fun x => !overlap r x) && disjointRegions rs

/-- Check 8. -/
def regionsFit (s : State) (im : List Byte) : Bool :=
  let new := createdRegions im
  let old := (List.range 64).map (regionNo s.memory) |>.filter fun r => r.valid
  disjointRegions new && new.all (fun r => old.all fun x => !overlap r x) &&
  decide (new.length + (old.length - 1) ≤ 63)

/-- KV pages of a KV region under a step table. -/
def pagesOf (s : State) (t : StepTable) (r : Option Region) : Nat :=
  match r with
  | some r => (r.hi + 1 - r.lo) / max 1 (pageTokens s * t.kvBytes)
  | none => 0

def firstKv (im : List Byte) : Option Region := (createdRegions im).find? fun r => r.kind == 1

/-- Check 9. -/
def areaFits (s : State) (im : List Byte) : Bool :=
  let t := stepTableOf im
  let a := areaAddr s
  let e := a + areaBytes s
  let p := s.proofs.base * 4096
  decide (fixedBytes t (pagesOf s t (firstKv im)) + 2 ^ 26 ≤ areaBytes s) &&
  decide (e ≤ p ∨ p + s.proofs.size * 4096 ≤ a)

/-- Check 10. -/
def proofsOk (s : State) (im : List Byte) : Bool :=
  let p := s.proofs.base * 4096
  let e := p + s.proofs.size * 4096
  let rs := (List.range 63).map (regionNo s.memory) ++ createdRegions im
  s.proofs.size != 0 && s.proofs.pSize != 0 && s.proofs.iSize != 0 &&
  rs.any fun r => r.live && r.kind == 4 && decide (r.lo ≤ p ∧ e ≤ r.hi + 1)

/-- The checks up to 3. -/
def earlyRefusal (s : State) (im : List Byte) : Option Nat :=
  match readRefusal s.prog.imgRead with
  | some e => some e
  | none =>
    if imgBits im 0 31 0 ≠ 0x4D495657 ∨ imgBytes im ≠ s.prog.imgBytes then some stMalformed
    else if imgVersion im ≠ 1 ∨ imgBits im 0 47 40 ≠ 1 ∨ imgBits im 0 55 48 ≠ 0 then some stVersion
    else if imgDigest im ≠ imgComputed im then some stMalformed
    else none

/-- Checks 7 to 10, and the conditions of a restart. -/
def lateRefusal (s : State) (im : List Byte) : Option Nat :=
  if !(imgRegionTable im).all (fun e => creates e || bindOk s e) then some stNoRes
  else if !regionsFit s im then some stNoRes
  else if imgStep im && !areaFits s im then some stNoRes
  else if !proofsOk s im then some stNoRes
  else if s.prog.args.restart && (imgDigest im != s.prog.lastDigest || s.prog.args.restartAt == 0 ||
      (!imgStep im && decide (strokeCount (imgStrokeTable im) < s.prog.args.restartAt))) then some stMalformed
  else none

/-! ### A refused load -/

/-- The fault registers of every heath cleared (R132). -/
def clearFaults (s : State) : State :=
  (List.range 48).foldl (fun s h => updHeath s h fun x => { x with fault := {}, faultCount := 0 }) s

/-- PROGRAM_DONE of a load that is refused; no image is loaded. -/
def refuseLoad (s : State) (d : DoneRec) : State :=
  let s := answer s s.prog.asker (progDoneWords s d)
  settleAbort { s with prog := { s.prog with phase := .none, digest := 0, image := [] } } stAlready

/-- The single record of R21 or R218 written, and the launch completed with PROGRAM_FAULT. -/
def refuseFault (s : State) (h : Nat) (f : FaultRec) : State :=
  let s := updHeath (clearFaults s) h fun x => { x with fault := { f with valid := true, gtc := now s } }
  refuseLoad s { status := stProgFault, code := f.code, heath := h }

/-- The lowest-numbered heath whose domain is powered, by its switch; heath 0 where none is (log 82). -/
def lowestPowered (s : State) : Nat := (least (fun h => (heathAt s h).on) 48).getD 0

/-! ### A load (R229) -/

/-- Non-zero words of a store, by address. -/
def codeWords (im : List Byte) (off : Nat) (n : Nat) : FMap DWord :=
  (((List.range n).map fun i => (i, dw (leNat ((im.drop (off + 8 * i)).take 8))))).filter fun p => p.2 != 0

/-- A mapped core as the loader leaves it, at word 0 in its setup section. -/
def loadCore (im e : List Byte) : Core :=
  let pre := (im.drop (bits (entWord e 2) 47 0)).take (bits (entWord e 3) 56 32)
  { codeEnd := codeEndOf e
    store := codeWords im (bits (entWord e 1) 47 0) (codeEndOf e + 8 * descsOf e)
    plate := if pre = [] then {} else memPut {} (bits (entWord e 3) 24 0) pre }

def loadCores (im : List Byte) : FMap Core :=
  ((imgCoreDir im).zipIdx.map fun p => (p.2, loadCore im p.1)).filter fun p => p.2 != {}

/-- Spare maps captured (R26); issue is free again. -/
def captureMaps (s : State) : State :=
  (List.range 48).foldl (fun s h => updHeath s h fun x =>
    { x with map := spareMap x, healthy := clearBits (spareMap x), frozen := false }) s

/-- Entries of the created regions, each the lowest that is not valid. -/
def createRegions (s : State) (l : List Region) : State :=
  l.foldl (fun s r => match freeRegion s.memory with
    | some n => setRegion s n r
    | none => s) s

/-- VALID 0 written in a region entry: WP clears with it (R141). -/
def Region.invalid (r : Region) : Region := { r with valid := false, wp := false, created := false }

/-- Regions that the last image created, removed by writing VALID 0 in each (R230). -/
def removeCreated (s : State) : State :=
  (List.range 63).foldl (fun s n =>
    let r := regionNo s.memory n
    if r.created then setRegion s n r.invalid else s) s

/-- Entry and repetition of stroke `n`, counted from 0. -/
def placeOf : List StrokeEnt → Nat → Nat × Nat
  | [], n => (0, n)
  | e :: l, n => if n ≤ e.rpt then (0, n) else
    let x := placeOf l (n - e.rpt - 1)
    (x.1 + 1, x.2)

/-- Steps or strokes that have gone before the first one to run. -/
def goneBefore (a : LaunchArgs) : Nat := if a.restart then a.restartAt - 1 else 0

/-- The program's fields (R221, R224 to R227). -/
def loadProg (p : Prog) (im : List Byte) (t : Nat) : Prog :=
  let gone := goneBefore p.args
  let at_ := if imgStep im then (0, 0) else placeOf (imgStrokeTable im) gone
  { phase := .loaded, asker := p.asker, args := p.args, seed := p.seed, loadedAt := t, grid := imgGrid im
    step := imgStep im, explain := imgExplain im, devices := imgDevices im, cores := imgCores im
    digest := imgDigest im, strokes := imgStrokeTable im, profiles := imgProfileTable im
    routes := (imgRouteTable im).map routeOf, groups := (imgGroupTable im).map groupOf
    binds := boundRegions im, kv := firstKv im, table := if imgStep im then stepTableOf im else {}
    epoch := p.epoch, entry := at_.1, rep := at_.2, committed := if imgStep im then 0 else gone
    lastDigest := p.lastDigest }

/-- Registers that clear at a load (R209). -/
def clearTick (t : Tick) : Tick :=
  { t with stop := {}, rounds := [], round := 0, sent := 0, holdStrokes := 0, stretch := 0, margin := 0, commits := []
           fixed := none, ended := false, rimBusy := false, stopDue := false }

/-- KV pages that are not all zeros, or hold a word in error: they start fallow. -/
def usedPages (s : State) : List Nat :=
  match s.prog.kv with
  | none => []
  | some r =>
    let nb := max 1 (pageBytes s)
    let page := fun a => (a - r.lo) / nb
    let cells := s.memory.ddr.cells.map fun c => c.1
    let words := s.memory.ddr.flips.map fun w => 8 * w.1
    let as_ := (cells ++ words).filter fun a => decide (r.lo ≤ a ∧ a < r.lo + pageCount s * nb)
    as_.foldl (fun l a => insertNat (page a) l) []

/-- A slot whose swap barrier stands. -/
def barrierStands (s : State) : Bool :=
  (List.range 8).any fun n => (slotAt s n).state == .swapping || (slotAt s n).state == .failed

/-- The engine at the load of a step program: the request table clears, the tenants are kept (R278). -/
def loadEngine (s : State) : State :=
  let v := s.srv
  let gone := goneBefore s.prog.args
  let used := usedPages s
  let s := unlinkHeld s
  writeNull { s with srv := { v with
      books := { tenants := v.books.tenants, freeCut := pageCount s, taken := used, fallow := used
                 variant := maskedVariant s.prog.table, barrier := barrierStands s }
      saved := none, decision := none, journal := [], cancels := [], budgets := [], retires := [], substs := []
      substFull := false, stores := [], dirty := usedBlocks s, scrubLeft := 0, reqFlips := [], cancelAll := false, partial_ := [], step := gone, jrnDone := gone
      curStep := gone, stepAt := 0 } }

/-- The proof and pair state at a load (R326, R338). -/
def loadProofs (s : State) : State :=
  { s with proofs := { clearProofs s.proofs with
      head := if s.prog.args.restart then s.prog.args.head else s.prog.digest
      headDevs := s.prog.devices, pHead := 0, iHead := 0, pDone := 0, iDone := 0 } }

/-- An image that passed its checks is loaded. -/
def loadImage (s : State) (im : List Byte) : State :=
  let s := captureMaps (clearFaults s)
  let s := { s with cores := loadCores im, transit := [], cut := {}, tick := clearTick s.tick
                    fab := { s.fab with coll := [], collSat := 0, frags := [], fragWins := [], ctr := [] } }
  let s := createRegions s (createdRegions im)
  let s := loadProofs { s with prog := loadProg s.prog im (now s) }
  let s := if s.prog.step then
      let s := loadEngine s
      ddrWrite s (manifestAddr s (s.srv.curStep + 1)) (manifestOf s (s.srv.curStep + 1))
    else s
  bumpMeas s

/-- Everything of the program before has reached its host ring (R338). -/
def recordsOut (s : State) : Bool :=
  s.proofs.store.all (fun x => x.inRing.isSome || x.lost) && s.proofs.held.isEmpty && s.proofs.due.isNone &&
  s.proofs.waitDone.isNone && s.srv.journal.isEmpty && s.proofs.gated.isEmpty

/-- IMAGE_LOAD. -/
def imageLoad (s : State) : State :=
  if s.prog.phase ≠ .accepted ∨ !recordsOut s then s
  else
    let s := deriveGrade (removeCreated s)
    let im := s.prog.image
    match earlyRefusal s im with
    | some e => refuseLoad s { status := e }
    | none =>
      if !gridOk s im then
        refuseFault s (lowestPowered s)
          { code := fcGrid, detail := dw (imgGrid im + s.die.effGrade % 16 * 16) }
      else if !formOk im then refuseLoad s { status := stMalformed }
      else match overDeclared im with
        | some (p, h) =>
          let v := (least (fun v => heathIn (imgGrid im) v == h) (imgCores im)).getD 0
          let n := heathTokens (imgGrid im) (imgCores im) (imgEntry im 1 640 p) h
          refuseFault s h { code := fcPower, vx := v % gridCols (imgGrid im), vy := v / gridCols (imgGrid im)
                            detail := dw (n + p * 2 ^ 16) }
        | none => match lateRefusal s im with
          | some e => refuseLoad s { status := e }
          | none =>
            let s := loadImage s im
            if s.fab.part = .unassigned ∧ s.prog.devices ≠ 1 then refuseRun s stMismatch else s

/-! ### LAUNCH_PROGRAM (R421, R426, R427) -/

/-- The launch argument block; without one, the defaults. -/
def launchArgs (addr : Nat) (a : Fetch) : LaunchArgs :=
  if addr = 0 then {}
  else
    { restart := bit (argWord a 0) 8, inAddr := bits (argWord a 1) 47 0, inBytes := bits (argWord a 2) 47 0
      outAddr := bits (argWord a 3) 47 0, outBytes := bits (argWord a 4) 47 0, notBefore := argWord a 5
      launchWait := bits (argWord a 6) 31 0, restartAt := argWord a 7
      head := digestOfBytes (wordsBytes ((List.range 4).map fun i => dw (argWord a (12 + i)))) }

/-- A range is empty or lies in the host-shared region. -/
def shareRange (a n : Nat) : Bool := n == 0 || decide (shareLo ≤ a ∧ a + n ≤ ddrEnd)

/-- How LAUNCH_PROGRAM is refused before its image is read. -/
def launchRefusal (s : State) (addr : Nat) (a : Fetch) : Option Nat :=
  if progHeld s ∨ s.lcf.busy ∨ s.guard.running.isSome ∨ s.guard.side ≠ [] ∨ !identityUsable s then some stNoRes
  else match argRefusal addr a with
    | some e => some e
    | none =>
      let x := launchArgs addr a
      if shareRange x.inAddr x.inBytes && shareRange x.outAddr x.outBytes then none else some stMalformed

/-- An accepted LAUNCH_PROGRAM: the image waits for its load. -/
def acceptLaunch (s : State) (w : Asker) (d : BitVec 512) (args : Fetch) (image : FetchBytes) : State :=
  match launchRefusal s (descWord d 5) args with
  | some e => launchRefused s w e
  | none =>
    { s with prog := { s.prog with
        phase := .accepted, asker := w, args := launchArgs (descWord d 5) args, image := image.bytes
        imgBytes := bits (descWord d 3) 47 0, imgRead := image.status, seed := dw (descWord d 4) } }

end Sys2Proof.Machine
end

