-- ==== Sys2Proof/Machine/Program.lean ====
section
/-! DEFINITION. The commands of programs and of QUERY (07 R228; 08 request and tenant entries; 09 R309; 12 R397; 13 R425 to R427). -/

namespace Sys2Proof.Machine

open Sys2Proof

/-- LAUNCH_PROGRAM (R427). -/
def execLaunchProgram (f r : Nat) (d : BitVec 512) (args : Fetch) (image : FetchBytes) (s : State) : Out :=
  .next (takeDesc s f r d dtLaunch fun s w => acceptLaunch s w d args image)

/-- IMAGE_LOAD (R228). -/
def execImageLoad (s : State) : Out := .next (imageLoad s)

/-- ABORT_PROGRAM (R397). -/
def execAbortProgram (f r : Nat) (d : BitVec 512) (s : State) : Out :=
  .next (takeDesc s f r d dtAbort fun s w => abortProgram s w)

/-! ### Records of QUERY (R425) -/

def stateCode : ReqState → Nat
  | .free => 0
  | .intake => 1
  | .queued => 2
  | .prefill => 3
  | .decode => 4
  | .attrib => 5
  | .held => 6
  | .ending => 7

/-- A request entry as of the last committed boundary (R248). -/
def seenReq (s : State) (i : Nat) : Req :=
  match s.srv.saved with
  | some b => look {} (mergeReqs b.reqs s.srv.books.reqs) i
  | none => reqAt s i

/-- A tenant entry as of the last committed boundary. -/
def seenTenant (s : State) (i : Nat) : Tenant :=
  match s.srv.saved with
  | some b => look {} b.tenants i
  | none => tenantAt s i

/-- Stop tokens as two words; an unused one is 0xFFFF_FFFF. -/
def stopWords (l : List Word) : List Nat :=
  let p := (l ++ List.replicate 4 0xFFFFFFFF).take 4
  [(nth 0 p 0).toNat + (nth 0 p 1).toNat * 2 ^ 32, (nth 0 p 2).toNat + (nth 0 p 3).toNat * 2 ^ 32]

/-- The request entry (table before R239). -/
def reqWords (r : Req) : List Nat :=
  if r.state = .free then List.replicate 32 0
  else
    [stateCode r.state + r.fn % 2 ^ 8 * 2 ^ 8 + r.cring % 2 ^ 6 * 2 ^ 16 + r.tenant % 2 ^ 12 * 2 ^ 22 +
       r.slot % 8 * 2 ^ 34 + r.adapter.getD 0 % 2 ^ 10 * 2 ^ 37 + b2n r.adapter.isSome * 2 ^ 47 +
       b2n r.explain * 2 ^ 48 + b2n r.expire * 2 ^ 49 + b2n r.late * 2 ^ 50 + b2n r.reprefill * 2 ^ 51,
     r.tag.toNat, r.seed.toNat, r.adapterVer % 2 ^ 32 + r.epoch % 2 ^ 16 * 2 ^ 32,
     r.prompt.length + r.maxNew * 2 ^ 32, r.prefilled + r.output.length * 2 ^ 32, r.hit + r.reserved * 2 ^ 32,
     r.store, r.store, r.arrival, r.firstTok, r.lastTok, r.deadline, r.ttft + r.tbt * 2 ^ 32,
     r.tbtMisses + b2n r.ttftMissed * 2 ^ 16, r.firstStep, r.lastStep] ++ stopWords r.stops ++
    (digestWords r.promptDig ++ digestWords r.outState).map (fun (w : DWord) => w.toNat) ++
    [r.swapStep % 2 ^ 48 + r.swapCount % 2 ^ 16 * 2 ^ 48, 0, 0, 0, 0]

/-- The tenant entry (table before R264). -/
def tenantWords (s : State) (i : Nat) : List Nat :=
  let t := seenTenant s i
  [b2n t.valid + b2n t.reject * 2 + t.fn % 2 ^ 8 * 2 ^ 8 + t.cost % 2 ^ 16 * 2 ^ 16 + t.rate % 2 ^ 32 * 2 ^ 32,
   t.level, t.burst, t.refilled, t.ttftMisses + t.tbtMisses * 2 ^ 32, t.served,
   tenantActive s i + t.rejected * 2 ^ 32, 0]

def slotCode : SlotState → Nat
  | .empty => 0
  | .loading => 1
  | .resident => 2
  | .swapping => 3
  | .failed => 4
  | .zeroing => 5

/-- The five state registers of a model slot (R309). -/
def slotWords (x : Slot) : List Nat :=
  [slotCode x.state + b2n (x.farBytes != 0) * 2 ^ 3 + x.split % 4 * 2 ^ 4 + x.mode % 2 * 2 ^ 6 +
     x.progress % 2 ^ 8 * 2 ^ 8 + x.epoch % 2 ^ 16 * 2 ^ 16,
   roundUnits x.near / unit2M % 2 ^ 22, roundUnits x.farBytes / unit2M % 2 ^ 25, x.change % 2 ^ 32,
   x.change / 2 ^ 32 % 2 ^ 32]

/-- SRV_SLOT_ROOT: zero when EMPTY. -/
def slotRoot (x : Slot) : Digest := if x.state = .empty then 0 else x.root

def adapterCode : AdState → Nat
  | .free => 0
  | .loading => 1
  | .live => 2
  | .retiring => 3
  | .zeroing => 4

/-- The ADAPTER record. -/
def adapterWords (s : State) (n : Nat) : List Nat :=
  let x := adapterAt s n
  [adapterCode x.state + x.slot % 8 * 2 ^ 3 + x.id % 2 ^ 20 * 2 ^ 12 + x.version % 2 ^ 32 * 2 ^ 32,
   adapterRefs s n % 2 ^ 32, 0, 0] ++ (digestWords x.digest).map fun (w : DWord) => w.toNat

/-- The record that a QUERY writes. -/
def queryBytes (s : State) (kind i : Nat) : List Byte :=
  match kind with
  | 0 => (reqWords (seenReq s i)).flatMap (leBytes 8)
  | 1 => (tenantWords s i).flatMap (leBytes 8)
  | 2 => (slotWords (slotAt s i)).flatMap (leBytes 4) ++ List.replicate 12 0 ++ digestBytes (slotRoot (slotAt s i))
  | _ => (adapterWords s i).flatMap (leBytes 8)

/-- The function may read the record (R413, R425). -/
def mayQuery (s : State) (f kind i : Nat) : Bool :=
  f == 0 || (kind == 0 && (seenReq s i).fn == f) || (kind == 1 && (seenTenant s i).fn == f)

/-- A QUERY: its record written to BUFFER, and the bytes written in DETAIL. A fault of the buffer completes the
descriptor alone, and no byte is written (R442). -/
def runQuery (s : State) (w : Asker) (x : QueryDesc) : State :=
  let d := x.words
  let kind := bits (descWord d 0) 34 32
  let i := bits (descWord d 0) 63 40
  let s := readTables s (if kind = 0 then [i] else []) (if kind = 1 then [i] else [])
  if mayQuery s w.fn kind i then
    match readRefusal x.buffer with
    | some e => answerStatus s w e
    | none =>
      let bs := queryBytes s kind i
      answerEvent (hostWrite s (descWord d 2) bs) w stOK 0 bs.length 0 0
  else answerStatus s w stMalformed

/-- QUERY (R425). -/
def execQuery (f r : Nat) (d : QueryDesc) (s : State) : Out :=
  .next (takeDesc s f r d.words dtQuery fun s w => runQuery s w d)

end Sys2Proof.Machine
end

