-- ==== Sys2Proof/Machine/Stile.lean ====
section
/-! DEFINITION. The commands of the stile: boot, SPDM, measurements, debug tokens and the watchdog (14 R444 to R457). -/

namespace Sys2Proof.Machine

open Sys2Proof

/-- BOOT_ROM_START (R447): slot A, slot B, or the ROM waits for the host, with the host port for CXL.io alone
(R446). -/
def execBootRomStart (slotA slotB : FetchBytes) (s : State) : Out :=
  .next (if s.stl.state = 0 ∧ s.pins.pgStl ∧ s.die.d49 ∧ !s.stl.romWait then
      if flashOk s slotA then sweepChannels (startFirmware s slotA.bytes 0)
      else if flashOk s slotB then sweepChannels (startFirmware s slotB.bytes 1)
      else { s with stl := { s.stl with romWait := true }, hif := { s.hif with link := ioOnly s.hif.link } }
    else s)

/-- FW_LOAD (R446): it comes over the trained host port. -/
def execFwLoad (image : List Byte) (s : State) : Out :=
  .next (if s.stl.romWait ∧ s.hif.link.rate ≠ 0 ∧ fwOk s image then sweepChannels (startFirmware s image 2) else s)

/-- SPDM_REQUEST (R451). -/
def execSpdmRequest (version : Nat) (m : SpdmMsg) (s : State) : Out :=
  .next (if s.stl.state = 1 then
      if version ≠ 0x12 ∧ version ≠ 0x13 then spdmError s spdmVersion else spdmTake s m
    else s)

/-- KEY_EXCHANGE (R453). -/
def execKeyExchange (session : Nat) (anchor : Digest) (valid : Bool) (s : State) : Out :=
  .next (if s.stl.state = 1 then exchangeKeys s session anchor valid else s)

/-- GET_MEASUREMENTS (R454). -/
def execGetMeasurements (index : MeasAsk) (s : State) : Out :=
  .next (if s.stl.state = 1 then
      match measurementBlocks s index.index with
      | some bs => if index.signed then spdmSigned s bs else spdmAnswer s bs
      | none => spdmError s spdmInvalid
    else s)

/-- DEBUG_TOKEN_SUBMIT (R456). -/
def execDebugTokenSubmit (token : List Byte) (s : State) : Out :=
  .next (if s.stl.state = 1 then submitToken s token else s)

/-- DEBUG_UNLOCK_EXPIRY (R457). -/
def execDebugUnlockExpiry (s : State) : Out :=
  .next (if s.lcf.unlocked then relock (advance s s.lcf.until_) else s)

/-- STILE_WATCHDOG_EXPIRY (R444). -/
def execStileWatchdogExpiry (upsets : List (Nat × BitVec 72)) (s : State) : Out :=
  .next (if s.stl.wdtEn ∧ s.stl.state = 1 then watchdogReset s upsets else s)

end Sys2Proof.Machine
end

