-- ==== Sys2Proof/Machine/RegRead.lean ====
section
/-! DEFINITION. What each register of BAR0 reads as: the field tables of the blocks (01 R34, R35; 04 R132; 05 R171; 06 R208; 07 R234; 08 R277; 09 R309; 10 R337; 11 R377; 12 R404, R407; 13 R441; 14 R468; 15 R487; 16 R488 to R499). -/

namespace Sys2Proof.Machine

open Sys2Proof

/-! ### Parts of words -/

/-- `n`, kept to `w` bits, at bit `lo`. -/
def fld (n w lo : Nat) : Nat := n % 2 ^ w * 2 ^ lo

/-- The low and the high word of a 64-bit number. -/
def loWord (n : Nat) : Nat := n % 2 ^ 32
def hiWord (n : Nat) : Nat := n / 2 ^ 32 % 2 ^ 32

/-- Word `i` of a digest's bytes in ascending order. -/
def digestWord (d : Digest) (i : Nat) : Nat := leNat (((digestBytes d).drop (4 * i)).take 4)

/-- A version register (R494). -/
def versionWord : Nat := 0x100

/-! ### Identity (R497) -/

def idcWord (s : State) (o : Nat) : Nat :=
  match o with
  | 0x00 => versionWord
  | 0x04 => 0x01010001
  | 0x08 => 0x6E01 + fld Config.stepping 4 16
  | 0x0C => 0x20449230
  | 0x10 => idcGradeWord s
  | 0x14 => loWord s.die.lost.toNat
  | 0x18 => hiWord s.die.lost.toNat
  | _ => 0

/-! ### Host port (R441, R498) -/

/-- Completions waiting over all functions. -/
def heldCount (s : State) : Nat := ((List.range 64).map fun f => (fnAt s f).held.length).foldl (· + ·) 0

def hifLinkWord (s : State) : Nat :=
  let l := s.hif.link
  fld l.rate 3 0 + fld l.width 5 3 + fld (b2n l.flit256) 1 8 + fld (b2n l.cache) 1 9 + fld (b2n l.mem) 1 10 +
  fld (b2n l.ideIo) 1 11 + fld (b2n l.ideCm) 1 12 + fld (b2n !(l.rate == 4 && l.width == 16)) 1 13

/-- Word `o` of the window of function `f`. -/
def fnWord (s : State) (f o : Nat) : Nat :=
  let x := fnAt s f
  match o with
  | 0x00 => b2n x.enable + fld (b2n (x.adapter || f == 0)) 1 1
  | 0x04 => fld x.state 2 0 + fld (b2n x.fault) 1 2 + fld x.cause 4 3 + fld x.gen 8 8 +
      fld (satTo 16 (fnActiveReqs s f)) 16 16
  | 0x08 => loWord (x.ctx * 2 ^ 6)
  | 0x0C => hiWord (x.ctx * 2 ^ 6)
  | 0x10 => loWord (x.db * 2 ^ 12)
  | 0x14 => hiWord (x.db * 2 ^ 12)
  | 0x18 => fld x.held.length 24 0
  | _ => 0

/-- Word `i` of the pending bits of function `f` (PCIe MSI-X). -/
def pendWord (s : State) (f i : Nat) : Nat :=
  ((List.range 32).map fun b => b2n (look {} s.hif.msix (msixKey f (32 * i + b))).pend * 2 ^ b).foldl (· + ·) 0

/-- Word `o` of entry `v` of the MSI-X table of function `f` (PCIe MSI-X). -/
def msixWord (s : State) (f v o : Nat) : Nat :=
  let m := look {} s.hif.msix (msixKey f v)
  match o with
  | 0x0 => loWord m.addr.toNat
  | 0x4 => hiWord m.addr.toNat
  | 0x8 => m.data.toNat
  | _ => b2n m.masked

def hifWord (s : State) (o : Nat) : Nat :=
  if 0x8000 ≤ o then msixWord s 0 ((o - 0x8000) / 16) (o % 16)
  else if 0x2000 ≤ o ∧ o < 0x2100 then pendWord s 0 ((o - 0x2000) / 4)
  else if 0x100 ≤ o ∧ o < 0x1100 then fnWord s ((o - 0x100) / 0x40) (o % 0x40)
  else match o with
    | 0x00 => versionWord
    | 0x04 => fld s.hif.poll 5 0 + fld (b2n s.hif.lock) 1 31
    | 0x08 => hifLinkWord s
    | 0x0C => fld s.hif.tracker.length 21 0
    | 0x10 => fld (heldCount s) 24 0
    | _ => 0

/-- Word `o` of the 64 KiB BAR0 of VF `f` (R441): its window, its MSI-X table and its pending bits; nothing else
is visible there. -/
def vfWord (s : State) (f o : Nat) : Nat :=
  if o < 0x40 then fnWord s f o
  else if 0x2000 ≤ o ∧ o < 0x2400 then msixWord s f ((o - 0x2000) / 16) (o % 16)
  else if 0x3000 ≤ o ∧ o < 0x3008 then pendWord s f ((o - 0x3000) / 4)
  else 0

/-! ### Serving engine, slots, load path and proofs (R277, R309, R337) -/

/-- Entries that are not FREE. -/
def activeReqs (s : State) : Nat := (s.srv.books.reqs.filter fun p => p.2.state != .free).length

def adaptersIn (s : State) (p : AdState → Bool) : Nat := (s.load.adapters.filter fun a => p a.2.state).length

def loadWord (s : State) : Nat :=
  match s.load.cur with
  | some o => fld o.kind 3 0 + fld o.slot 3 3 + fld (loadPercent s.load o) 8 8 +
      fld (satTo 16 s.load.queue.length) 16 16
  | none => fld (satTo 16 s.load.queue.length) 16 16

/-- Words 0x00 to 0x3C (R277). -/
def srvEngineWords (s : State) : List Nat :=
  let v := s.srv
  [versionWord,
   b2n v.enable + fld v.pageTok 3 1 + fld v.pfxMode 2 4 + fld v.depth 3 6 + fld (b2n v.lock) 1 31,
   fld (activeReqs s) 17 0 + fld (b2n v.books.barrier) 1 17 + fld (b2n v.cfgReject) 1 18,
   loWord v.step, hiWord v.step, loWord (v.areaBase * 2 ^ 21), hiWord (v.areaBase * 2 ^ 21) % 2 ^ 16,
   fld v.areaSize 20 0, loWord (v.jrnBase * 2 ^ 12), hiWord (v.jrnBase * 2 ^ 12), fld v.jrnSize 24 0,
   loWord v.jrnDone, loWord (pagesFree v.books), loWord v.books.fallow.length, loWord v.hits,
   fld v.ttftMiss 16 0 + fld v.tbtMiss 16 16]

/-- Words 0x40 to 0x5C (R309). -/
def srvLoadWords (s : State) : List Nat :=
  let l := s.load
  [loWord (l.adBase * 2 ^ 21), hiWord (l.adBase * 2 ^ 21) % 2 ^ 16,
   fld l.adUnits 16 0 + fld l.adCount 11 16 + fld (b2n l.adEnable) 1 27,
   fld (adaptersIn s (· == .live)) 11 0 + fld (adaptersIn s fun a => a == .retiring || a == .zeroing) 11 11,
   loadWord s, 0, 0, 0]

/-- Words 0x60 to 0xA0 (R337). -/
def srvProofWords (s : State) : List Nat :=
  let p := s.proofs
  [fld p.signEvery 6 0 + fld (b2n p.pairGate) 1 6, loWord (p.base * 2 ^ 12), hiWord (p.base * 2 ^ 12) % 2 ^ 16,
   fld p.size 24 0, loWord (p.pBase * 2 ^ 12), hiWord (p.pBase * 2 ^ 12), fld p.pSize 24 0,
   loWord (p.iBase * 2 ^ 12), hiWord (p.iBase * 2 ^ 12), fld p.iSize 24 0, loWord p.signed, hiWord p.signed,
   fld p.pairState 2 0 + fld (b2n (bit s.fab.id 23 && s.fab.id != 0xFFFFFF)) 1 2, loWord p.divStep, hiWord p.divStep, loWord p.pHead,
   loWord p.iHead]

def srvWord (s : State) (o : Nat) : Nat :=
  if o < 0xA4 then nth 0 (srvEngineWords s ++ srvLoadWords s ++ srvProofWords s) (o / 4)
  else if 0x100 ≤ o ∧ o < 0x200 then nth 0 (slotWords (slotAt s ((o - 0x100) / 0x20))) (o % 0x20 / 4)
  else if 0x200 ≤ o ∧ o < 0x300 then digestWord (slotRoot (slotAt s ((o - 0x200) / 0x20))) (o % 0x20 / 4)
  else 0

/-! ### Device memory (R171) -/

/-- The words of `MEM_POISON_LO` and `MEM_POISON_HI`. -/
def poisonWords (m : Memory) : Nat × Nat :=
  match m.poison with
  | p :: _ => (loWord p.addr, hiWord p.addr % 2 ^ 16 + fld p.kind 3 16 + fld (b2n m.overflow) 1 30 + 2 ^ 31)
  | [] => (0, 0)

def regionWord (r : Region) (w : Nat) : Nat :=
  match w with
  | 0 => b2n r.valid + fld r.kind 3 1 + fld (b2n r.wp) 1 4 + fld r.slot 3 8
  | 1 => fld r.base 27 0
  | 2 => fld r.limit 27 0
  | _ => 0

def spareWord (s : State) (x : Spare) : Nat := fld x.pos 4 0 + fld x.state 4 4 + fld (copyPercent s x) 8 8

def memWord (s : State) (o : Nat) : Nat :=
  let m := s.memory
  if 0x8000 ≤ o then
    let g := look {} m.far ((o - 0x8000) / 8)
    if o % 8 = 0 then b2n g.valid + fld (b2n g.write) 1 1 + loWord (g.host * 2 ^ 12) else hiWord (g.host * 2 ^ 12)
  else if 0x1000 ≤ o ∧ o < 0x1400 then regionWord (regionNo m ((o - 0x1000) / 16)) (o % 16 / 4)
  else if 0x100 ≤ o ∧ o < 0x240 then
    let c := chanAt s ((o - 0x100) / 4)
    fld c.score 16 0 + fld c.ue 8 16
  else if 0x20 ≤ o ∧ o < 0x40 then spareWord s (spareAt s ((o - 0x20) / 4))
  else match o with
    | 0x00 => versionWord
    | 0x04 => b2n m.scrubEn + fld (b2n m.spareEn) 1 1 + fld m.thresh 16 16
    | 0x08 => 0x1FA00
    | 0x0C => 0x186A0
    | 0x40 => (poisonWords m).1
    | 0x44 => (poisonWords m).2
    | _ => 0

/-! ### Ticks (R208) -/

def syncCode : SyncState → Nat
  | .unsync => 0
  | .acquiring => 1
  | .locked => 2
  | .holdover => 3

/-- BOUND: 0xFF when UNSYNC or ACQUIRING. -/
def boundByte (s : State) : Nat :=
  match s.tick.sync with
  | .unsync => 0xFF
  | .acquiring => 0xFF
  | _ => satTo 8 ((syncBound s (now s)).getD 0xFF)

/-- Words 0x00 to 0x5C. -/
def tckWords (s : State) : List Nat :=
  let t := s.tick
  [versionWord,
   fld t.quant 9 0 + fld t.limit 7 16 + fld (b2n t.spread) 1 23 + fld (b2n t.lock) 1 31,
   loWord t.gtc, loWord t.gtcHi,
   b2n t.master + fld t.uplink 7 8 + fld t.depth 3 16,
   syncCode t.sync + fld (boundByte s) 8 8 + fld t.missed 8 16,
   fld t.runQuant 9 0 + fld t.runLimit 7 16 + fld (b2n t.launched) 1 24 + fld (b2n t.alone) 1 25,
   fld t.lead 13 0 + fld t.path 13 16, loWord t.stroke, loWord t.launch, hiWord t.launch, loWord t.budget,
   fld t.round 8 0 + fld t.sent 8 8, loWord t.holdStrokes, loWord t.stretch, hiWord t.stretch,
   fld t.stop.code 8 0 + fld t.stop.cause 4 8 + fld (b2n t.stop.isLocal) 1 12 + fld (b2n t.stop.valid) 1 13,
   loWord t.stop.stroke, fld t.stop.origin 24 0, loWord t.stop.gtc, hiWord t.stop.gtc, bitsOf 32 t.margin,
   fld t.xingLate 16 0, fld t.stale 16 0]

/-! ### Fabric and links (R377, R404, R407) -/

def partCode : PartState → Nat
  | .unassigned => 0
  | .assigned => 1
  | .running => 2
  | .fenced => 3
  | .teardown => 4

/-- Words 0x00 to 0x3C. -/
def fabWords (s : State) : List Nat :=
  let f := s.fab
  [versionWord, fld (b2n f.lock) 1 31, fld f.id 24 0, partCode f.part + fld f.pkey 16 16, fld f.size 24 0,
   fld f.rank 24 0, fld f.coord 24 0, fld f.unsched 7 0 + 0x100000, fld f.timeout 5 0,
   fld f.collector 24 0 + fld (b2n f.congEn) 1 24, loWord (f.ringBase * 2 ^ 12), hiWord (f.ringBase * 2 ^ 12),
   fld f.ringSize 24 0, fld f.foreign 16 0 + fld f.badMgmt 16 16, fld f.lateResp 16 0 + fld f.dropRoute 16 16,
   fld f.score 16 0 + fld f.thresh 10 16 + fld (b2n f.suspect) 1 26]

/-- A health word from its three scores and what else decides its grade (R404). -/
def healthWord (ce replay retrain : Nat) (worn dead : Bool) : Nat :=
  let top := max ce (max replay retrain)
  let grade := if dead then 3 else if 64 ≤ top ∨ 2 ≤ retrain ∨ worn then 2 else if 16 ≤ top then 1 else 0
  min ce 255 + 2 ^ 8 * min replay 255 + 2 ^ 16 * min retrain 255 + 2 ^ 24 * grade

/-- `FAB_COMPAT_LINK0` to `FAB_COMPAT_LINK35` (0 to 35) and `FAB_COMPAT_DEV` (36) (R404). -/
def compatWord (s : State) (i : Nat) : Nat :=
  let t := now s
  if i < 36 then
    let l := linkAt s i
    healthWord (l.fecWin.last t / 1024) (l.replayWin.last t) (l.retrainWin.last t) false (l.state = .down)
  else
    let sum := fun (f : Link → Win) => (((List.range 36).map fun n => (f (linkAt s n)).last t)).foldl (· + ·) 0
    let plate := ((List.range 48).map fun h => (heathAt s h).ceWin.last t).foldl (· + ·) 0
    healthWord ((plate + s.memory.ceWin.last t) / 16) (sum Link.replayWin / 16) (sum Link.retrainWin)
      ((List.range 8).any fun d => 2 ≤ (spareAt s d).state) (s.die.lost ≠ 0)

/-- `FAB_ENGINE_STATUS` of engine `e`. -/
def engineWord (s : State) (e : Nat) : Nat :=
  b2n (s.fab.engFault.getLsbD e) + fld ((engineLinks e).filter (linkUp s)).length 5 8

/-- Words +0x00 to +0x38 of the window of link `n`. -/
def linkWords (s : State) (n : Nat) : List Nat :=
  let l := linkAt s n
  let r := l.peer.getD {}
  let has := l.peer.isSome
  [b2n l.enable + fld (b2n l.fence) 1 1 + fld (b2n l.elec) 1 2 + fld l.nReplay 4 4 + fld l.mRetrain 4 8 +
     fld (l.vcMask ||| 3).toNat 8 16,
   linkCode l.state + fld (b2n l.lanesOff) 1 3 + fld l.reason 4 8 + fld l.peerReason 4 12 + fld l.proto 4 16 +
     fld l.vcOper.toNat 8 20,
   fld l.plan.peer 24 0 + fld l.plan.peerLink 5 24 + fld (b2n l.plan.planned) 1 29 + fld (b2n l.plan.spare) 1 30,
   if has then fld r.device 24 0 + fld r.link 5 24 + fld r.axis 2 29 + 2 ^ 31 else 0,
   if has then loWord r.identity.toNat else 0, if has then hiWord r.identity.toNat else 0,
   if has then r.fwBuild.toNat else 0,
   fld l.delay 16 0 + fld l.timer 16 16, l.failed.toNat + fld l.spareFor 4 9, fld l.bad 16 0 + fld l.naks 16 16,
   loWord l.resent, fld l.retrains 16 0 + fld (satTo 4 (recentRetrains s l).length) 4 16,
   fld l.fecCorr 16 0 + fld l.fecBad 16 16, fld l.dup 16 0 + fld l.vcDrop 16 16, fld l.pool 12 0]

def fabWord (s : State) (o : Nat) : Nat :=
  if 0x1000 ≤ o ∧ o < 0x1900 then nth 0 (linkWords s ((o - 0x1000) / 0x40)) (o % 0x40 / 4)
  else if 0x840 ≤ o ∧ o < 0x858 then engineWord s ((o - 0x840) / 4)
  else if 0x80 ≤ o ∧ o < 0x114 then compatWord s ((o - 0x80) / 4)
  else if 0x40 ≤ o ∧ o < 0x60 then digestWord s.fab.planDig ((o - 0x40) / 4)
  else if o < 0x40 then nth 0 (fabWords s) (o / 4)
  else match o with
    | 0x800 => 0x11
    | 0x804 => s.fab.vcResv.toNat
    | 0x808 => 0x18
    | _ => 0

/-! ### Power (R487) -/

/-- The switched domains, D0 to D49. -/
def domainBits (s : State) : Nat :=
  ((List.range 48).map fun h => b2n (heathAt s h).on * 2 ^ h).foldl (· + ·) 0 + b2n (s.die.d48 && s.pwr.d48Shown) * 2 ^ 48 +
  b2n s.die.d49 * 2 ^ 49

/-- Words 0x00 to 0x28. -/
def pwrWords (s : State) : List Nat :=
  let p := s.pwr
  [versionWord,
   b2n p.capEn + fld p.fast 5 1 + fld (b2n p.avsEn) 1 6 + fld (b2n p.lock) 1 31,
   b2n p.ready + fld (b2n p.unmet) 1 1 + fld (b2n s.pins.pcap) 1 2 + fld (b2n s.pins.alert) 1 3 +
     fld p.level 5 4 + fld p.hottest 8 16,
   fld p.cap 14 0, fld p.power 14 0, loWord (domainBits s), hiWord (domainBits s), fld p.temp 10 0,
   loWord (throttleNow s), hiWord (throttleNow s), fld p.cause 3 0]

/-! ### Stile and fuses (R454, R468) -/

def guardBusy (s : State) : Bool := s.guard.running.isSome || s.guard.side != []

/-- Words 0x00 to 0x30 of the STL block. -/
def stlWords (s : State) : List Nat :=
  let t := s.stl
  let g := s.guard
  [versionWord, b2n t.wdtEn + fld (b2n t.lock) 1 31,
   fld t.state 2 0 + fld t.source 2 2 + fld (b2n (identityUsable s)) 1 4 + fld t.wdtResets 8 8, t.build.toNat,
   fld t.svn 11 0 + fld t.keyIndex 4 16, fld g.op 4 0, loWord g.arg.toNat, hiWord g.arg.toNat,
   b2n (guardBusy s) + fld g.lastOp 4 1 + fld g.lastStatus 8 5 + fld g.queue.length 3 13 + fld g.discarded 16 16,
   loWord (g.dumpBase * 2 ^ 12), hiWord (g.dumpBase * 2 ^ 12),
   b2n g.captured + fld (b2n g.written) 1 1 + fld g.units 12 8, loWord t.measGen]

def stlWord (s : State) (o : Nat) : Nat :=
  if o < 0x34 then nth 0 (stlWords s) (o / 4)
  else if 0x40 ≤ o ∧ o < 0x60 then digestWord s.stl.anchor ((o - 0x40) / 4)
  else if 0x60 ≤ o ∧ o < 0x70 then s.stl.nonce.toNat / 2 ^ (32 * ((o - 0x60) / 4)) % 2 ^ 32
  else 0

/-- Words 0x00 to 0x2C of the LCF block. -/
def lcfWords (s : State) : List Nat :=
  let l := s.lcf
  [versionWord, lcfStateWord s, fld l.cmd 4 0 + fld l.confirm 11 8 + fld (b2n l.go) 1 31, fld l.value 11 0,
   b2n l.busy + fld l.status 8 8, lcfRollbackWord s, lcfRevokeWord s, lcfCommitsWord s, lcfEligWord s,
   lcfDebugWord s, loWord Config.uid.toNat, hiWord Config.uid.toNat]

def lcfWord (s : State) (o : Nat) : Nat :=
  if o < 0x30 then nth 0 (lcfWords s) (o / 4)
  else if 0x40 ≤ o ∧ o < 0x60 then digestWord (fuseDigest s) ((o - 0x40) / 4)
  else 0

/-! ### Heath windows (R34, R35, R132, R171, R208, R234, R487, R499) -/

def heathCode : HeathState → Nat
  | .up => 0
  | .short => 1
  | .lost => 2
  | .off => 3

/-- `HTH_STATUS`: where STATE reads OFF, the other fields read as at reset. -/
def heathStatus (h : Nat) (x : Heath) : Nat :=
  let st := heathCode x.state + fld (homeMr h) 3 17
  if x.state = .off then st else st + fld x.lossCause 8 8 + fld (b2n x.subst) 1 16

/-- Words 0x20 to 0x50. -/
def heathWords (s : State) (h : Nat) (x : Heath) : List Nat :=
  let f := x.fault
  [fld f.code 8 0 + fld f.opcode 8 8 + fld f.vx 6 16 + fld f.vy 6 22 + fld (b2n f.valid) 1 28 + fld (b2n f.instr) 1 29,
   fld f.pc 16 0, loWord f.stroke, loWord f.gtc, hiWord f.gtc, loWord f.detail.toNat, hiWord f.detail.toNat,
   fld x.faultCount 16 0, fld x.ce 16 0 + fld x.spareRows 12 16, fld x.droop 16 0,
   fld x.declared 9 0 + fld x.profile 8 16, fld x.temp 10 0 + fld x.therm 5 10 + fld (levelOf s h) 5 15,
   fld x.vid 8 0 + fld x.current 12 8 + fld (b2n x.avsFault) 1 20]

def heathWord (s : State) (h o : Nat) : Nat :=
  let x := heathAt s h
  match o with
  | 0x00 => x.fuse.toNat
  | 0x04 => x.runtime.toNat
  | 0x08 => if x.state = .off then 0 else x.map.toNat + fld x.healthy 5 27
  | 0x0C => heathStatus h x
  | 0x10 => versionWord
  | _ => if x.state = .off ∨ o < 0x20 then 0 else nth 0 (heathWords s h x) ((o - 0x20) / 4)

/-! ### BAR0 (R488 to R490) -/

/-- The 32-bit word at an offset of BAR0, a multiple of 4; 0 where no register stands. -/
def regWord (s : State) (off : Nat) : Nat :=
  let o := off % 0x10000
  match off / 0x10000 with
  | 0 => idcWord s o
  | 1 => hifWord s o
  | 2 => srvWord s o
  | 3 => memWord s o
  | 4 => nth 0 (tckWords s) (o / 4)
  | 5 => fabWord s o
  | 6 => nth 0 (pwrWords s) (o / 4)
  | 7 => stlWord s o
  | 8 => lcfWord s o
  | b => if 0x10 ≤ b ∧ b < 0x40 then heathWord s (b - 0x10) o else 0

/-- An access of this size at this offset is one that a BAR of `n` bytes accepts. -/
def sizeIn (n off size : Nat) : Bool :=
  (size == 1 || size == 2 || size == 4 || size == 8) && off % size == 0 && decide (off + size ≤ n)

/-- An access that PF0's BAR0 accepts. -/
def sizeOk (off size : Nat) : Bool := sizeIn (2 ^ 26) off size

/-- What a read delivers from a BAR of `n` bytes whose words are `word`. -/
def readIn (n : Nat) (word : Nat → Nat) (off size : Nat) : Nat :=
  if !sizeIn n off size then 0
  else if size = 8 then word off % 2 ^ 32 + word (off + 4) % 2 ^ 32 * 2 ^ 32
  else word (off / 4 * 4) / 2 ^ (8 * (off % 4)) % 2 ^ (8 * size)

/-- What a read of PF0's BAR0 delivers. -/
def readValue (s : State) (off size : Nat) : Nat := readIn (2 ^ 26) (regWord s) off size

/-- What a read of VF `f`'s BAR0 delivers (R441). -/
def vfReadValue (s : State) (f off size : Nat) : Nat := readIn (2 ^ 16) (vfWord s f) off size

/-- A read covers a byte of the word at `w`. -/
def covers (off size w : Nat) : Bool := sizeOk off size && decide (off < w + 4 ∧ w < off + size)

/-- The oldest entry of the poison log removed; OVERFLOW clears when the log is empty. -/
def popPoison (m : Memory) : Memory :=
  { m with poison := m.poison.drop 1, overflow := m.overflow && m.poison.drop 1 != [] }

def tckGtcLo : Nat := 0x40008
def memPoisonHi : Nat := 0x30044

/-- A read of `size` bytes at `off`, with the two effects of R492. An 8-byte read of the GTC returns both
words of one count. -/
def readReg (s : State) (off size : Nat) : State × Nat :=
  let s := if covers off size tckGtcLo then { s with tick := { s.tick with gtcHi := hiWord s.tick.gtc } } else s
  let v := readValue s off size
  let s := if covers off size memPoisonHi then { s with memory := popPoison s.memory } else s
  ({ s with readData := dw v }, v)

end Sys2Proof.Machine
end

