-- ==== Sys2Proof/Machine/RegWrite.lean ====
section
/-! DEFINITION. What a write to each register of BAR0 does, field by field: RW, RWL, W1C and W1S fields take it, RO and OTP fields ignore it (00 R8; 16 R488 to R493), with the rules of the register's own chapter. -/

namespace Sys2Proof.Machine

open Sys2Proof

/-! ### Parts of numbers -/

/-- `n` with bits `[hi:lo]` replaced by `v`. -/
def setBits (n hi lo v : Nat) : Nat :=
  n / 2 ^ (hi + 1) * 2 ^ (hi + 1) + v % 2 ^ (hi + 1 - lo) * 2 ^ lo + n % 2 ^ lo

/-- A digest with word `i` of its bytes replaced. -/
def setDigestWord (d : Digest) (i v : Nat) : Digest :=
  digestOfBytes ((digestBytes d).take (4 * i) ++ leBytes 4 v ++ (digestBytes d).drop (4 * i + 4))

/-! ### Host port (R441, R498) -/

/-- ENABLE written: a 0 disables the function; a 1 stands in the register where the function may be enabled (R436), and
the device reads the context table, whose return FUNCTION_ENABLE is. -/
def writeFnEnable (s : State) (f : Nat) (on : Bool) : State :=
  if on then (if (fnAt s f).state = 0 ∧ s.die.d48 ∧ mayEnable f (fnAt s f).pci then updFn s f fun x => { x with enable := true } else s)
  else updFn (disableFn s f) f fun x => { x with enable := false }

/-- HIF_FN_CTRL, field by field. -/
def writeFnCtrl (s : State) (f v : Nat) : State :=
  writeFnEnable (if f = 0 then s else updFn s f fun x => { x with adapter := bit v 1 }) f (bit v 0)

/-- The address words of a function, which stand while ENABLE is 1. -/
def writeFnAddr (x : Fn) (o v : Nat) : Fn :=
  if x.enable then x
  else match o with
    | 0x08 => { x with ctx := setBits x.ctx 25 0 (v / 2 ^ 6) }
    | 0x0C => { x with ctx := setBits x.ctx 57 26 v }
    | 0x10 => { x with db := setBits x.db 19 0 (v / 2 ^ 12) }
    | 0x14 => { x with db := setBits x.db 51 20 v }
    | _ => x

def writeFn (s : State) (f o v : Nat) : State :=
  match o with
  | 0x00 => writeFnCtrl s f v
  | 0x04 => if bit v 2 then updFn s f fun x => { x with fault := false } else s
  | _ => updFn s f fun x => writeFnAddr x o v

/-- A word of an MSI-X table entry of function `f` (PCIe MSI-X); a vector unmasked while it pends is sent. -/
def writeMsix (s : State) (f vec o v : Nat) : State :=
  let m := look {} s.hif.msix (msixKey f vec)
  let m' : Msix := match o with
    | 0x0 => { m with addr := dw (setBits m.addr.toNat 31 2 (v / 4)) }
    | 0x4 => { m with addr := dw (setBits m.addr.toNat 63 32 v) }
    | 0x8 => { m with data := BitVec.ofNat 32 v }
    | _ => { m with masked := bit v 0 }
  let send := m'.pend && !m'.masked
  let s := { s with hif := { s.hif with
    msix := put {} s.hif.msix (msixKey f vec) { m' with pend := m'.pend && m'.masked } } }
  if send then sendVector s f vec else s

def writeHif (s : State) (o v : Nat) : State :=
  if 0x8000 ≤ o then writeMsix s 0 ((o - 0x8000) / 16) (o % 16) v
  else if 0x100 ≤ o ∧ o < 0x1100 then writeFn s ((o - 0x100) / 0x40) (o % 0x40) v
  else if o = 0x04 then
    { s with hif := { s.hif with
      poll := if s.hif.lock then s.hif.poll else clampTo 8 20 (bits v 4 0)
      lock := s.hif.lock || bit v 31 } }
  else s

/-! ### Serving engine, adapters and proofs (R236, R259, R277, R278, R297, R309, R337) -/

/-- SRV_CTRL: a write that R259 refuses has no effect but CFG_REJECT. -/
def writeSrvCtrl (s : State) (v : Nat) : State :=
  if configRefused s (bits v 3 1) (bits v 5 4) then { s with srv := { s.srv with cfgReject := true } }
  else
  let locked := s.srv.lock
  let s := configEngine s (bits v 3 1) (bits v 5 4)
  let s := { s with srv := { s.srv with
    depth := if locked then s.srv.depth else bits v 8 6
    lock := locked || bit v 31 } }
  if !bit v 0 then disableEngine s else if s.srv.enable then s else enableEngine s

/-- SRV_AREA and SRV_JOURNAL, words 0x14 to 0x28. -/
def writeSrvRwl (v : Srv) (o w : Nat) : Srv :=
  if v.lock ∨ (o < 0x20 ∧ v.enable) then v
  else match o with
    | 0x14 => { v with areaBase := setBits v.areaBase 10 0 (w / 2 ^ 21) }
    | 0x18 => { v with areaBase := setBits v.areaBase 26 11 (w % 2 ^ 16) }
    | 0x1C => { v with areaSize := w % 2 ^ 20 }
    | 0x20 => { v with jrnBase := setBits v.jrnBase 19 0 (w / 2 ^ 12) }
    | 0x24 => { v with jrnBase := setBits v.jrnBase 51 20 w }
    | 0x28 => { v with jrnSize := w % 2 ^ 24 }
    | _ => v

/-- The adapter region is no more: its entry is free. -/
def dropAdapterRegion (s : State) : State :=
  let l := s.load
  match least (fun n =>
      let r := regionNo s.memory n
      r.valid && r.kind == 2 && !r.created && r.base == l.adBase) 63 with
  | some n => setLoad (setRegion s n {}) { l with adEnable := false }
  | none => setLoad s { l with adEnable := false }

/-- SRV_ADAPTER_BASE and SRV_ADAPTER_CFG, refused while a program is loaded or a slot is in use (R297). -/
def writeAdapter (s : State) (o v : Nat) : State :=
  if progLive s ∨ s.load.adapters ≠ [] then { s with srv := { s.srv with cfgReject := true } }
  else match o with
    | 0x40 => setLoad s { s.load with adBase := setBits s.load.adBase 10 0 (v / 2 ^ 21) }
    | 0x44 => setLoad s { s.load with adBase := setBits s.load.adBase 26 11 (v % 2 ^ 16) }
    | _ =>
      if bit v 27 then enableAdapters s (bits v 15 0) (bits v 26 16)
      else
        let s := if s.load.adEnable then dropAdapterRegion s else s
        setLoad s { s.load with adUnits := bits v 15 0, adCount := bits v 26 16 }

/-- The proof registers, words 0x60 to 0x84: no effect while locked or while a program is loaded. -/
def writeProofRwl (p : Proofs) (o v : Nat) : Proofs :=
  match o with
  | 0x60 => { p with signEvery := bits v 5 0, pairGate := bit v 6 }
  | 0x64 => { p with base := setBits p.base 19 0 (v / 2 ^ 12) }
  | 0x68 => { p with base := setBits p.base 35 20 (v % 2 ^ 16) }
  | 0x6C => { p with size := v % 2 ^ 24 }
  | 0x70 => { p with pBase := setBits p.pBase 19 0 (v / 2 ^ 12) }
  | 0x74 => { p with pBase := setBits p.pBase 51 20 v }
  | 0x78 => { p with pSize := v % 2 ^ 24 }
  | 0x7C => { p with iBase := setBits p.iBase 19 0 (v / 2 ^ 12) }
  | 0x80 => { p with iBase := setBits p.iBase 51 20 v }
  | 0x84 => { p with iSize := v % 2 ^ 24 }
  | _ => p

def writeSrv (s : State) (o v : Nat) : State :=
  if o = 0x04 then writeSrvCtrl s v
  else if o = 0x08 then
    if bit v 18 then { s with srv := { s.srv with cfgReject := false } } else s
  else if o < 0x2C then { s with srv := writeSrvRwl s.srv o v }
  else if 0x40 ≤ o ∧ o < 0x4C then writeAdapter s o v
  else if 0x60 ≤ o ∧ o < 0x88 then
    if s.srv.lock || progLive s then s else { s with proofs := writeProofRwl s.proofs o v }
  else if o = 0x9C then { s with proofs := { s.proofs with pHead := v } }
  else if o = 0xA0 then { s with proofs := { s.proofs with iHead := v } }
  else s

/-! ### Device memory (R141, R160, R171, R303) -/

/-- Word +0x0 of a region entry. While a program is loaded, of a valid entry only WP acts, and only in a
write whose VALID bit is 1 (R141). -/
def writeRegion0 (r : Region) (fixed : Bool) (v : Nat) : Region :=
  if fixed then { r with wp := r.wp || (bit v 0 && bit v 4) }
  else if bit v 0 then
    { r with valid := true, kind := bits v 3 1, wp := r.wp || bit v 4, slot := bits v 10 8, created := false }
  else { r with valid := false, kind := bits v 3 1, wp := false, slot := bits v 10 8, created := false }

/-- Word `w` of region entry `n`. Entry 63 is fixed (R140). DEDUCED (log 84): an entry that an image
created and the driver has since written is the driver's, and the next launch does not remove it (R230). -/
def writeRegion (s : State) (n w v : Nat) : State :=
  if 63 ≤ n then s
  else
    let r := regionNo s.memory n
    let fixed := progLive s && r.valid
    match w with
    | 0 => setRegion s n (writeRegion0 r fixed v)
    | 1 => if fixed then s else setRegion s n { r with base := v % 2 ^ 27, created := false }
    | 2 => if fixed then s else setRegion s n { r with limit := v % 2 ^ 27, created := false }
    | _ => s

/-- A model slot that is not EMPTY has its far part over segment `g`. -/
def segHeld (s : State) (g : Nat) : Bool :=
  (List.range 8).any fun n =>
    let x := slotAt s n
    x.state != .empty && x.farBytes != 0 &&
    decide (farLo + g * farSeg < x.farAddr + x.farBytes ∧ x.farAddr < farLo + (g + 1) * farSeg)

/-- MEM_FAR_SEG. -/
def writeSeg (s : State) (g : Nat) (high : Bool) (v : Nat) : State :=
  if segHeld s g then s
  else { s with memory := { s.memory with far := upd {} s.memory.far g fun x =>
    if high then { x with host := setBits x.host 51 20 v }
    else { valid := bit v 0, write := bit v 1, host := setBits x.host 19 0 (v / 2 ^ 12) } } }

def writeMem (s : State) (o v : Nat) : State :=
  if 0x8000 ≤ o then writeSeg s ((o - 0x8000) / 8) (o % 8 != 0) v
  else if 0x1000 ≤ o ∧ o < 0x1400 then writeRegion s ((o - 0x1000) / 16) (o % 16 / 4) v
  else if o = 0x04 then
    sweepChannels { s with memory := { s.memory with
      scrubEn := bit v 0, spareEn := bit v 1, thresh := bits v 31 16 } }
  else s

/-! ### Ticks (R179, R182, R196, R208) -/

/-- TCK_SYNC_CFG: a new upstream link begins to acquire, and a new master can be designated, only while
no program is loaded (R184). -/
def writeSync (s : State) (v : Nat) : State :=
  if bits v 14 8 = s.tick.uplink ∨ progLive s then
    { s with tick := { s.tick with
      master := bit v 0 && s.lcf.eligible && (s.tick.master || !progLive s)
      uplink := bits v 14 8, depth := bits v 18 16 } }
  else takeSync s (bit v 0) (bits v 14 8) (bits v 18 16)

def writeTck (s : State) (o v : Nat) : State :=
  if o = 0x04 then
    let t := s.tick
    if t.lock then s
    else { s with tick := { t with
      quant := clampTo 4 256 (bits v 8 0), limit := clampTo 6 64 (bits v 22 16), spread := bit v 23
      lock := bit v 31 } }
  else if o = 0x10 ∧ !s.tick.lock then writeSync s v
  else s

/-! ### Fabric and links (R344, R355, R373, R374, R377, R378, R407) -/

/-- The sum of the units of FAB_VC_RESV, in which 0 acts as 1. -/
def resvSum (v : Nat) : Nat := ((List.range 8).map fun k => max 1 (bits v (4 * k + 3) (4 * k))).foldl (· + ·) 0

/-- The RWL registers of the block. -/
def writeFabRwl (f : Fab) (o v : Nat) : Fab :=
  match o with
  | 0x08 => { f with id := bits v 23 0 }
  | 0x1C => { f with unsched := bits v 6 0 }
  | 0x20 => { f with timeout := clampTo 16 30 (bits v 4 0) }
  | 0x24 => { f with collector := bits v 23 0, congEn := bit v 24 }
  | 0x28 => { f with ringBase := setBits f.ringBase 19 0 (v / 2 ^ 12) }
  | 0x2C => { f with ringBase := setBits f.ringBase 51 20 v }
  | 0x30 => { f with ringSize := v % 2 ^ 24 }
  | 0x3C => { f with thresh := bits v 25 16 }
  | 0x804 => if resvSum v ≤ 32 then { f with vcResv := BitVec.ofNat 32 v } else f
  | _ => f

/-- The fields of FAB_LINK_CTRL that only hold a value. -/
def writeLinkFields (l : Link) (locked : Bool) (v : Nat) : Link :=
  if locked then l
  else { l with nReplay := bits v 7 4, mRetrain := bits v 11 8
                vcMask := BitVec.ofNat 8 (bits v 23 16) ||| 3 }

/-- ENABLE changed. -/
def writeEnable (s : State) (n : Nat) (on : Bool) : State :=
  if on = (linkAt s n).enable then s
  else if on then startLink s n
  else linkOff (updLink s n fun l => { l with enable := false }) n

/-- FENCE and ELEC. A hedge whose ELEC is set later powers its lanes down. -/
def writeFence (s : State) (n : Nat) (on elec : Bool) : State :=
  let l := linkAt s n
  if on && !l.fence then setFence s n elec
  else if !on && l.fence then clearFence (updLink s n fun l => { l with elec := elec }) n
  else updLink s n fun l => { l with
    elec := elec, lanesOff := l.lanesOff || (elec && l.fence && l.state == .fenced) }

/-- FAB_LINK_CTRL of link `n`. -/
def writeLinkCtrl (s : State) (n v : Nat) : State :=
  let s := updLink s n fun l => writeLinkFields l s.fab.lock v
  let s := writeEnable s n (bit v 0)
  let s := writeFence s n (bit v 1) (bit v 2)
  if bit v 3 then rediscoverLink s n else s

/-- FAB_LINK_PLAN of link `n`. -/
def writeLinkPlan (s : State) (n v : Nat) : State :=
  if progLive s && carriesSched s n then s
  else updLink s n fun l => { l with plan := { l.plan with
    peer := bits v 23 0, peerLink := bits v 28 24, planned := bit v 29, spare := bit v 30 } }

def writeFab (s : State) (o v : Nat) : State :=
  if 0x1000 ≤ o ∧ o < 0x1900 then
    if o % 0x40 = 0 then writeLinkCtrl s ((o - 0x1000) / 0x40) v
    else if o % 0x40 = 8 then writeLinkPlan s ((o - 0x1000) / 0x40) v
    else s
  else if o = 0x04 then { s with fab := { s.fab with lock := s.fab.lock || bit v 31 } }
  else if s.fab.lock then s
  else { s with fab := writeFabRwl s.fab o v }

/-! ### Power (R476, R480, R487) -/

/-- The rails of every heath set for AVS_EN as it has been written: with it clear, at the fused VID. -/
def holdAll (s : State) : State :=
  (List.range 48).foldl (fun s h =>
    if railsAnswer s h ∧ (heathAt s h).railVid ≠ 0 then updHeath s h (holdRails s h) else s) s

/-- PWR_CTRL. -/
def writePwrCtrl (s : State) (v : Nat) : State :=
  let p := s.pwr
  let s := settleThrottle s
  let s := if p.lock then s
    else
      let s := setCapLevel { s with pwr := { s.pwr with
        capEn := bit v 0, fast := bits v 5 1, avsEn := bit v 6 } }
      holdAll s
  { s with pwr := { s.pwr with lock := p.lock || bit v 31 } }

def writePwr (s : State) (o v : Nat) : State :=
  if o = 0x04 then writePwrCtrl s v
  else if o = 0x0C then { s with pwr := { s.pwr with cap := clampTo 4000 12500 (bits v 13 0) } }
  else s

/-! ### Stile and fuses (R459, R464, R468) -/

/-- STL_GUARD: a code of the table requests its operation; a reserved code is never accepted. -/
def writeGuard (s : State) (code : Nat) : State :=
  match guardOfCode code with
  | some op => guardRequest { s with guard := { s.guard with op := 0 } } op
  | none => { s with guard := { s.guard with op := code } }

def writeStl (s : State) (o v : Nat) : State :=
  let t := s.stl
  let g := s.guard
  if o = 0x04 then
    { s with stl := { t with wdtEn := if t.lock then t.wdtEn else bit v 0, lock := t.lock || bit v 31 } }
  else if o = 0x14 then writeGuard s (bits v 3 0)
  else if o = 0x18 then { s with guard := { g with arg := BitVec.ofNat 48 (setBits g.arg.toNat 31 0 v) } }
  else if o = 0x1C then
    { s with guard := { g with arg := BitVec.ofNat 48 (setBits g.arg.toNat 47 32 (v % 2 ^ 16)) } }
  else if o = 0x24 then { s with guard := { g with dumpBase := setBits g.dumpBase 19 0 (v / 2 ^ 12) } }
  else if o = 0x28 then { s with guard := { g with dumpBase := setBits g.dumpBase 51 20 v } }
  else if 0x40 ≤ o ∧ o < 0x60 ∧ !t.lock then
    { s with stl := { t with anchor := setDigestWord t.anchor ((o - 0x40) / 4) v } }
  else s

def writeLcf (s : State) (o v : Nat) : State :=
  if o = 0x08 then
    if bit v 31 then fuseCommand s (bits v 3 0) s.lcf.value (bits v 18 8)
    else { s with lcf := { s.lcf with cmd := bits v 3 0, confirm := bits v 18 8 } }
  else if o = 0x0C then { s with lcf := { s.lcf with value := bits v 10 0 } }
  else s

/-! ### Heath windows (R28, R34) -/

/-- HTH_CORE_RUNTIME, with the stile's mirror: R35 keeps no part of it from a heath without power. -/
def writeRuntime (s : State) (h v : Nat) : State :=
  updHeath s h fun x => { x with
    runtime := x.runtime ||| BitVec.ofNat 27 v, mirror := x.mirror ||| x.runtime ||| BitVec.ofNat 27 v }

/-! ### BAR0 (R488 to R491) -/

/-- A 32-bit write at an offset of BAR0, a multiple of 4. -/
def writeWord (s : State) (off v : Nat) : State :=
  let o := off % 0x10000
  let v := v % 2 ^ 32
  match off / 0x10000 with
  | 0 => s
  | 1 => writeHif s o v
  | 2 => writeSrv s o v
  | 3 => writeMem s o v
  | 4 => writeTck s o v
  | 5 => writeFab s o v
  | 6 => writePwr s o v
  | 7 => writeStl s o v
  | 8 => writeLcf s o v
  | b => if 0x10 ≤ b ∧ b < 0x40 ∧ o = 0x04 then writeRuntime s (b - 0x10) v else s

/-- A 32-bit write at an offset of VF `f`'s BAR0, where ADAPTER is RO (R441). -/
def writeVfWord (s : State) (f o v : Nat) : State :=
  let v := v % 2 ^ 32
  if o = 0x00 then writeFnEnable s f (bit v 0)
  else if o < 0x40 then writeFn s f o v
  else if 0x2000 ≤ o ∧ o < 0x2400 then writeMsix s f ((o - 0x2000) / 16) (o % 16) v
  else s

/-- A write of `size` bytes to a BAR of `n` bytes: only whole 32-bit registers take it, the lower address
first. -/
def writeIn (n : Nat) (word : State → Nat → Nat → State) (s : State) (off size v : Nat) : State :=
  if !sizeIn n off size ∨ size < 4 then s
  else if size = 8 then word (word s off v) (off + 4) (v / 2 ^ 32)
  else word s off v

/-- A write of `size` bytes to PF0's BAR0. -/
def writeReg (s : State) (off size v : Nat) : State := writeIn (2 ^ 26) writeWord s off size v

/-- A write of `size` bytes to the BAR0 of function `f`; a VF that is not there takes none. -/
def writeBar (s : State) (f off size v : Nat) : State :=
  if f = 0 then writeReg s off size v
  else if f < 64 ∧ (fnAt s f).pci.present then writeIn (2 ^ 16) (fun s => writeVfWord s f) s off size v
  else s

end Sys2Proof.Machine
end

