-- ==== Sys2Proof/Machine/Registers.lean ====
section
/-! DEFINITION. The commands of the register map (05 R141; 06 R178; 16 R490 to R493). -/

namespace Sys2Proof.Machine

open Sys2Proof

/-- REGISTER_WRITE (R441, R491): through the BAR0 of a function. -/
def execRegisterWrite (off : BarAt) (size : Nat) (value : DWord) (s : State) : Out :=
  .next (writeBar s off.fn off.off size value.toNat)

/-- GTC_LO_READ (R178). -/
def execGtcLoRead (size : Nat) (s : State) : Out := .next (readReg s tckGtcLo size).1

/-- POISON_LOG_READ (R492): at an offset of BAR0. -/
def execPoisonLogRead (off size : Nat) (s : State) : Out := .next (readReg s off size).1

/-- REGION_ENTRY_WRITE (R141). -/
def execRegionEntryWrite (n w : Nat) (value : Word) (s : State) : Out := .next (writeRegion s n w value.toNat)

/-! ### The management path (R493) -/

/-- Function windows, pending bits and the MSI-X table are not reached. -/
def unreachable (off : Nat) : Bool :=
  decide (0x10100 ≤ off ∧ off < 0x11100) || decide (0x12000 ≤ off ∧ off < 0x12100) ||
  decide (0x18000 ≤ off ∧ off < 0x20000)

/-- The data of a read sent with its RESPONSE. -/
def respondData (s : State) (a : Auth) (size v : Nat) : State :=
  sendMgmt s { dst := a.sender, mtype := mtResponse, session := a.session, a := stOK, bytes := leBytes size v }

/-- REG_READ (R493). -/
def execRegRead (a : Auth) (off size : Nat) (s : State) : Out :=
  .next (withAuth s .manager a fun s =>
    if unreachable off then respond s a mtResponse stMalformed
    else
      let r := readReg s off size
      respondData r.1 a size r.2)

/-- REG_WRITE (R493). -/
def execRegWrite (a : Auth) (off size : Nat) (value : DWord) (s : State) : Out :=
  .next (withAuth s .manager a fun s =>
    if unreachable off then respond s a mtResponse stMalformed
    else respond (writeReg s off size value.toNat) a mtResponse stOK)

end Sys2Proof.Machine
end

