-- ==== Sys2Proof/Machine/Resets.lean ====
section
/-! DEFINITION. Resets, bring-up, power-good and clock events (15 R471, R472, R483, R484; 17 R503). -/

namespace Sys2Proof.Machine

open Sys2Proof

/-- COLD_RESET (R483). -/
def execColdReset (strap : BitVec 4) (d49Lost : Bool) (s : State) : Out := .next (coldReset s strap d49Lost)

/-- WARM_RESET (R484): no effect once POWER_OFF has been accepted (R485). -/
def execWarmReset (s : State) : Out := .next (if s.guard.off then s else warmReset s)

/-! ### Bring-up (R471) -/

/-- Every power-good is asserted. -/
def powerGood (s : State) : Bool :=
  s.pins.pgStl && s.pins.pgHcore && s.pins.pgHsram && s.pins.pgRim && s.pins.pgMem && s.pins.pgSd

/-- BRING_UP_START (R471): the firmware has waited for every power-good (17 R503). D48 comes up, and the GTC starts at 0;
after a warm reset it goes on counting (R484). -/
def execBringUpStart (s : State) : Out :=
  .next (if s.pwr.boot = 1 ∧ s.stl.state = 1 ∧ powerGood s ∧ !s.guard.off then
      let t := if s.tick.running then s.tick else { s.tick with gtc := 0, running := true }
      { s with
        die := { s.die with d48 := true }
        tick := t
        pwr := { s.pwr with boot := 2, d48Shown := true, upAt := t.gtc, capAt := t.gtc, throttleAt := t.gtc } }
    else s)

/-- The domains before Dh have been switched. -/
def switchedBefore (s : State) (h : Nat) : Bool := (List.range h).all fun g => (heathAt s g).on

/-- HEATH_SWITCH_ON (R471): Dh at 1 ms + 200 µs × h after D48. A heath lost since the last cold reset is lost again
(01 R31). DESIGN CHOICE (log 19): STATE reads OFF, with the switch shown in PWR_DOMAIN, until its self-test ends. -/
def execHeathSwitchOn (h : Nat) (s : State) : Out :=
  .next (if h < 48 ∧ bringsUp s ∧ !(heathAt s h).on ∧ switchedBefore s h then
      let s := settleThrottle (advance s (s.pwr.upAt + 400000 + 80000 * h))
      let c := (heathAt s h).lossLatch
      let s := updHeath s h fun x => { x with on := true }
      if c = 0 then s else settleReady (loseHeath s h c)
    else s)

/-- POWER_GOOD_TIMEOUT (R472). -/
def execPowerGoodTimeout (h : Nat) (s : State) : Out :=
  .next (if h < 48 ∧ (heathAt s h).on ∧ (heathAt s h).state = .off then settleReady (loseHeath s h 1) else s)

/-- HEATH_SELF_TEST_DONE (R471). -/
def execHeathSelfTestDone (h : Nat) (r : SelfTest) (s : State) : Out :=
  .next (if h < 48 ∧ (heathAt s h).on ∧ (heathAt s h).state = .off then settleReady (settleTest s h r) else s)

/-- CHANNEL_TRAINING_DONE (R471): a channel that fails is handled as a failed one (R472). -/
def execChannelTrainingDone (c : Nat) (ok : Bool) (s : State) : Out :=
  .next (if c < 80 ∧ bringsUp s ∧ !(chanAt s c).trained ∧ !(chanAt s c).failed then
      settleReady (if ok then setChan s c { chanAt s c with trained := true } else failChannel s c)
    else s)

/-- DDR_INIT_ZERO_DONE (R471). -/
def execDdrInitZeroDone (s : State) : Out :=
  .next (if bringsUp s ∧ chansSettled s ∧ !s.memory.zeroed then
      settleReady { s with memory := { s.memory with ddr := {}, zeroed := true } }
    else s)

/-! ### Power-good and clocks (R503) -/

/-- A power-good input at a level. -/
def setPg (p : Pins) (pg : PowerGood) (on : Bool) : Pins :=
  match pg with
  | .stl => { p with pgStl := on }
  | .hcore => { p with pgHcore := on }
  | .hsram => { p with pgHsram := on }
  | .rim => { p with pgRim := on }
  | .mem => { p with pgMem := on }
  | .sd => { p with pgSd := on }

/-- A power-good that returns: with PG_STL, D49 has its power again. -/
def pgReturns (s : State) (pg : PowerGood) : State :=
  { s with pins := setPg s.pins pg true, die := { s.die with d49 := s.die.d49 || pg == .stl } }

/-- A power-good that falls. Until PG_STL returns, the others are ignored. -/
def pgFalls (s : State) (pg : PowerGood) : State :=
  let s' := { s with pins := setPg s.pins pg false }
  match pg with
  | .stl => coldReset s s.pins.strap true
  | .hcore | .hsram => if s.pins.pgStl then settleReady (loseAll s' 1) else s'
  | .rim | .mem | .sd => if s.pins.pgStl then darkRim s' else s'

/-- POWER_GOOD_LOSS (R503): an edge of a power-good input. -/
def execPowerGoodLoss (e : PgEdge) (s : State) : Out :=
  .next (if e.rise then pgReturns s e.pg else pgFalls s e.pg)

/-- Every link that carries anything goes DOWN with reason LANES. -/
def linksDown (s : State) : State :=
  (List.range linkCount).foldl (fun s n =>
    let st := (linkAt s n).state
    if st = .off ∨ st = .down then s else linkDown s n 2) s

/-- REFCLK_LOSS (R503): REFCLK_TICK, or REFCLK_MAIN. -/
def execRefclkLoss (tick : Bool) (s : State) : Out :=
  .next (if tick then loseReference s
    else linksDown (settleReady (loseAll { s with pins := { s.pins with refMain := false } } 2)))

end Sys2Proof.Machine
end

