-- ==== Sys2Proof/Machine/Vector.lean ====
section
/-! DEFINITION. The vector instructions (04 R103 to R108, R127). -/

namespace Sys2Proof.Machine

open Sys2Proof

/-- VLD (R103). -/
def execVld (v : Nat) (s : State) : Out := .next (unitCommand s v 0x10 runVld)
/-- VST (R104). -/
def execVst (v : Nat) (s : State) : Out := .next (unitCommand s v 0x11 runVst)
/-- VALU (R61). -/
def execValu (v : Nat) (s : State) : Out := .next (unitCommand s v 0x12 runValu)
/-- VFN (R64). -/
def execVfn (v : Nat) (s : State) : Out := .next (unitCommand s v 0x13 runVfn)
/-- VRED (R63). -/
def execVred (v : Nat) (s : State) : Out := .next (unitCommand s v 0x14 runVred)
/-- VMASK (R107). -/
def execVmask (v : Nat) (s : State) : Out := .next (unitCommand s v 0x15 runVmask)
/-- VLANE (R107). -/
def execVlane (v : Nat) (s : State) : Out := .next (unitCommand s v 0x16 runVlane)
/-- VSYS MLD (R105). -/
def execMld (v : Nat) (s : State) : Out := .next (sysCommand s v 0 runMld)
/-- VSYS NLD (R105). -/
def execNld (v : Nat) (s : State) : Out := .next (sysCommand s v 1 runNld)
/-- VSYS RECST (R127). -/
def execRecst (v : Nat) (s : State) : Out := .next (sysCommand s v 2 runRecst)
/-- VSYS MST (R105). -/
def execMst (v : Nat) (s : State) : Out := .next (sysCommand s v 3 runMst)

end Sys2Proof.Machine
end

