-- ==== Sys2Proof/Machine/Xfer.lean ====
section
/-! DEFINITION. SEND, RECV and MCAST, the arrival of data at the mesh port, and the completion of a RECV (04 R110 to R112, R121; 07 R213). -/

namespace Sys2Proof.Machine

open Sys2Proof

/-- A SEND, RECV or MCAST issued; the queue holds at most 16. -/
def xferIssue (s : State) (v : Nat) (word : DWord) : State :=
  if !xferIssueOk s v word.toNat then issueIllegal s v word
  else if 16 ≤ (coreAt s v).xf.length then s
  else
    let pc := (coreAt s v).pc
    takeFault v (issueXfer (advanceCore s v) v pc word)

/-- A command of one XFER opcode. -/
def xferCommand (s : State) (v op : Nat) : State :=
  issueWith s v (fun w => opOf w == op) fun s w => xferIssue s v w

/-- SEND (R111). -/
def execSend (v : Nat) (s : State) : Out := .next (xferCommand s v 0x20)
/-- RECV (R111). -/
def execRecv (v : Nat) (s : State) : Out := .next (xferCommand s v 0x21)
/-- MCAST (R112). -/
def execMcast (v : Nat) (s : State) : Out := .next (xferCommand s v 0x22)

/-- The core's part of the program runs, so that it takes deliveries: it has not halted the program and
issue is not frozen. -/
def takesData (s : State) (v : Nat) : Bool := mapped s v && !(heathAt s (heathOf s v)).frozen

/-- The oldest delivery in transit to a core on a slot from a source arrives at its port. -/
def deliverMesh (s : State) (v slot : Nat) (src : Source) : State :=
  inTick s v (fun s => takesData s v) fun s =>
    match takeFirst (fun (d : Delivery) => d.dst == v && d.slot == slot && d.src == src) s.transit with
    | some (d, r) => takeFault v (arrive { s with transit := r } v d)
    | none => s

/-- MESH_DELIVERY (R111). -/
def execMeshDelivery (v slot : Nat) (src : Source) (s : State) : Out := .next (deliverMesh s v slot src)

/-- The oldest RECV of a slot completes, where it has run and its delivery is in the port. -/
def finishRecv (s : State) (v slot : Nat) : State :=
  inTick s v (fun s => takesData s v) fun s =>
    match readyRecv (coreAt s v) slot with
    | some (r, d) => takeFault v (completeRecv s v r d)
    | none => s

/-- RECV_COMPLETE (R121). -/
def execRecvComplete (v slot : Nat) (s : State) : Out := .next (finishRecv s v slot)

end Sys2Proof.Machine
end

