-- ==== Sys2Proof/Machine/Dispatch.lean ====
section
/-! DEFINITION. The meaning of each command: one arm for each constructor. -/

namespace Sys2Proof.Machine

open Sys2Proof

def exec (i : Instr) (s : State) : Host.Outcome State Fault Refusal :=
  match i with
  | .loadTile v => Sys2Proof.Machine.execLoadTile v s
  | .stream v => Sys2Proof.Machine.execStream v s
  | .drain v => Sys2Proof.Machine.execDrain v s
  | .accClear v => Sys2Proof.Machine.execAccClear v s
  | .vmpLoad v => Sys2Proof.Machine.execVmpLoad v s
  | .vmpStream v => Sys2Proof.Machine.execVmpStream v s
  | .vmpDrain v => Sys2Proof.Machine.execVmpDrain v s
  | .vmpClear v => Sys2Proof.Machine.execVmpClear v s
  | .vld v => Sys2Proof.Machine.execVld v s
  | .vst v => Sys2Proof.Machine.execVst v s
  | .valu v => Sys2Proof.Machine.execValu v s
  | .vfn v => Sys2Proof.Machine.execVfn v s
  | .vred v => Sys2Proof.Machine.execVred v s
  | .vmask v => Sys2Proof.Machine.execVmask v s
  | .vlane v => Sys2Proof.Machine.execVlane v s
  | .mld v => Sys2Proof.Machine.execMld v s
  | .mst v => Sys2Proof.Machine.execMst v s
  | .nld v => Sys2Proof.Machine.execNld v s
  | .recst v => Sys2Proof.Machine.execRecst v s
  | .dmaRow v => Sys2Proof.Machine.execDmaRow v s
  | .dmaCol v => Sys2Proof.Machine.execDmaCol v s
  | .dmaPressImage v => Sys2Proof.Machine.execDmaPressImage v s
  | .dmaMxPack v => Sys2Proof.Machine.execDmaMxPack v s
  | .dmaGather v => Sys2Proof.Machine.execDmaGather v s
  | .send v => Sys2Proof.Machine.execSend v s
  | .recv v => Sys2Proof.Machine.execRecv v s
  | .mcast v => Sys2Proof.Machine.execMcast v s
  | .strokeEnd v => Sys2Proof.Machine.execStrokeEnd v s
  | .wait v => Sys2Proof.Machine.execWait v s
  | .own v => Sys2Proof.Machine.execOwn v s
  | .nop v => Sys2Proof.Machine.execNop v s
  | .loop v => Sys2Proof.Machine.execLoop v s
  | .setb v => Sys2Proof.Machine.execSetb v s
  | .addb v => Sys2Proof.Machine.execAddb v s
  | .mop v => Sys2Proof.Machine.execMop v s
  | .halt v => Sys2Proof.Machine.execHalt v s
  | .meshDelivery v slot src => Sys2Proof.Machine.execMeshDelivery v slot src s
  | .recvComplete v slot => Sys2Proof.Machine.execRecvComplete v slot s
  | .dmaDescriptorComplete v eng => Sys2Proof.Machine.execDmaDescriptorComplete v eng s
  | .coreStrokeEndReached v => Sys2Proof.Machine.execCoreStrokeEndReached v s
  | .strokeLaunch => Sys2Proof.Machine.execStrokeLaunch s
  | .holdPoint => Sys2Proof.Machine.execHoldPoint s
  | .decisionTick => Sys2Proof.Machine.execDecisionTick s
  | .strokeCommit => Sys2Proof.Machine.execStrokeCommit s
  | .hold n p => Sys2Proof.Machine.execHold n p s
  | .stop n p => Sys2Proof.Machine.execStop n p s
  | .launchCancel n p => Sys2Proof.Machine.execLaunchCancel n p s
  | .beacon n p => Sys2Proof.Machine.execBeacon n p s
  | .beaconSend => Sys2Proof.Machine.execBeaconSend s
  | .beaconMissed => Sys2Proof.Machine.execBeaconMissed s
  | .coordinatorLaunchStart => Sys2Proof.Machine.execCoordinatorLaunchStart s
  | .launchAckDeadline => Sys2Proof.Machine.execLaunchAckDeadline s
  | .launchWaitTimeout => Sys2Proof.Machine.execLaunchWaitTimeout s
  | .crossingLateArrival => Sys2Proof.Machine.execCrossingLateArrival s
  | .droopDetected h => Sys2Proof.Machine.execDroopDetected h s
  | .patrolScrub addr overwritten => Sys2Proof.Machine.execPatrolScrub addr overwritten s
  | .channelScoreHalving => Sys2Proof.Machine.execChannelScoreHalving s
  | .copyOutRemap d => Sys2Proof.Machine.execCopyOutRemap d s
  | .granuleRepairComplete addr bytes => Sys2Proof.Machine.execGranuleRepairComplete addr bytes s
  | .registerWrite off size value => Sys2Proof.Machine.execRegisterWrite off size value s
  | .gtcLoRead size => Sys2Proof.Machine.execGtcLoRead size s
  | .poisonLogRead off size => Sys2Proof.Machine.execPoisonLogRead off size s
  | .regionEntryWrite n w value => Sys2Proof.Machine.execRegionEntryWrite n w value s
  | .srvEnable => Sys2Proof.Machine.execSrvEnable s
  | .srvDisable => Sys2Proof.Machine.execSrvDisable s
  | .srvConfigChange pageTokens mode => Sys2Proof.Machine.execSrvConfigChange pageTokens mode s
  | .adapterRegionEnable units count => Sys2Proof.Machine.execAdapterRegionEnable units count s
  | .hostRingHeadWrite impression count => Sys2Proof.Machine.execHostRingHeadWrite impression count s
  | .proofRingCopy => Sys2Proof.Machine.execProofRingCopy s
  | .functionEnable f pci table => Sys2Proof.Machine.execFunctionEnable f pci table s
  | .functionDisable f cause => Sys2Proof.Machine.execFunctionDisable f cause s
  | .flrComplete f => Sys2Proof.Machine.execFlrComplete f s
  | .pf0Flr => Sys2Proof.Machine.execPf0Flr s
  | .lifecycleAdvance target confirm => Sys2Proof.Machine.execLifecycleAdvance target confirm s
  | .downbin confirm => Sys2Proof.Machine.execDownbin confirm s
  | .spareCommit confirm => Sys2Proof.Machine.execSpareCommit confirm s
  | .revokeKey key confirm => Sys2Proof.Machine.execRevokeKey key confirm s
  | .rollbackAdvance count confirm => Sys2Proof.Machine.execRollbackAdvance count confirm s
  | .tickEligToggle confirm => Sys2Proof.Machine.execTickEligToggle confirm s
  | .debugLock confirm => Sys2Proof.Machine.execDebugLock confirm s
  | .debugRelock => Sys2Proof.Machine.execDebugRelock s
  | .fuseCommandComplete => Sys2Proof.Machine.execFuseCommandComplete s
  | .freeze path => Sys2Proof.Machine.execFreeze path s
  | .fenceAll path => Sys2Proof.Machine.execFenceAll path s
  | .hostFlush path => Sys2Proof.Machine.execHostFlush path s
  | .dump path => Sys2Proof.Machine.execDump path s
  | .heathReset path => Sys2Proof.Machine.execHeathReset path s
  | .zeroizeKeys path => Sys2Proof.Machine.execZeroizeKeys path s
  | .zeroizePlates path => Sys2Proof.Machine.execZeroizePlates path s
  | .zeroizeDdr path => Sys2Proof.Machine.execZeroizeDdr path s
  | .powerOff path => Sys2Proof.Machine.execPowerOff path s
  | .guardOpComplete => Sys2Proof.Machine.execGuardOpComplete s
  | .heathControllerTimeout h recovers => Sys2Proof.Machine.execHeathControllerTimeout h recovers s
  | .linkEnable n => Sys2Proof.Machine.execLinkEnable n s
  | .linkDisable n => Sys2Proof.Machine.execLinkDisable n s
  | .linkFence n elec => Sys2Proof.Machine.execLinkFence n elec s
  | .linkUnfence n => Sys2Proof.Machine.execLinkUnfence n s
  | .linkRediscover n => Sys2Proof.Machine.execLinkRediscover n s
  | .trainingComplete n failed delay => Sys2Proof.Machine.execTrainingComplete n failed delay s
  | .trainingTimeout n => Sys2Proof.Machine.execTrainingTimeout n s
  | .record n r => Sys2Proof.Machine.execRecord n r s
  | .linkVerdict n verdict reason => Sys2Proof.Machine.execLinkVerdict n verdict reason s
  | .rediscover n => Sys2Proof.Machine.execRediscover n s
  | .discoveryRepeat n => Sys2Proof.Machine.execDiscoveryRepeat n s
  | .discoveryTimeout n => Sys2Proof.Machine.execDiscoveryTimeout n s
  | .flitSlotTransmit n => Sys2Proof.Machine.execFlitSlotTransmit n s
  | .flitReceive n slot f => Sys2Proof.Machine.execFlitReceive n slot f s
  | .replayTimerExpiry n => Sys2Proof.Machine.execReplayTimerExpiry n s
  | .laneLockLoss n lane => Sys2Proof.Machine.execLaneLockLoss n lane s
  | .retrainComplete n r => Sys2Proof.Machine.execRetrainComplete n r s
  | .portEngineFault e => Sys2Proof.Machine.execPortEngineFault e s
  | .packetForward n vc => Sys2Proof.Machine.execPacketForward n vc s
  | .data p => Sys2Proof.Machine.execData p s
  | .readReq p => Sys2Proof.Machine.execReadReq p s
  | .writeReq p => Sys2Proof.Machine.execWriteReq p s
  | .readResp p => Sys2Proof.Machine.execReadResp p s
  | .writeAck p => Sys2Proof.Machine.execWriteAck p s
  | .window p => Sys2Proof.Machine.execWindow p s
  | .coll id rank bytes => Sys2Proof.Machine.execColl id rank bytes s
  | .requestTimeout tag => Sys2Proof.Machine.execRequestTimeout tag s
  | .congestionMapLatch => Sys2Proof.Machine.execCongestionMapLatch s
  | .congMap a map => Sys2Proof.Machine.execCongMap a map s
  | .planWrite a part => Sys2Proof.Machine.execPlanWrite a part s
  | .planCommit a digest key => Sys2Proof.Machine.execPlanCommit a digest key s
  | .teardown a => Sys2Proof.Machine.execTeardown a s
  | .teardownComplete => Sys2Proof.Machine.execTeardownComplete s
  | .fencePorts a links elec => Sys2Proof.Machine.execFencePorts a links elec s
  | .fenceDevice a => Sys2Proof.Machine.execFenceDevice a s
  | .unfence a => Sys2Proof.Machine.execUnfence a s
  | .regRead a off size => Sys2Proof.Machine.execRegRead a off size s
  | .regWrite a off size value => Sys2Proof.Machine.execRegWrite a off size value s
  | .response a status => Sys2Proof.Machine.execResponse a status s
  | .launch a r => Sys2Proof.Machine.execLaunch a r s
  | .launchAnswer a status => Sys2Proof.Machine.execLaunchAnswer a status s
  | .abort a => Sys2Proof.Machine.execAbort a s
  | .stopPoint => Sys2Proof.Machine.execStopPoint s
  | .ready a member => Sys2Proof.Machine.execReady a member s
  | .readyTimeout => Sys2Proof.Machine.execReadyTimeout s
  | .loadLeafReceived leaf data far => Sys2Proof.Machine.execLoadLeafReceived leaf data far s
  | .verdict a member status => Sys2Proof.Machine.execVerdict a member status s
  | .drained a member step => Sys2Proof.Machine.execDrained a member step s
  | .leafHashes a member first hashes => Sys2Proof.Machine.execLeafHashes a member first hashes s
  | .manifest a bytes => Sys2Proof.Machine.execManifest a bytes s
  | .pair a m => Sys2Proof.Machine.execPair a m s
  | .pairHeadTimeout => Sys2Proof.Machine.execPairHeadTimeout s
  | .pairBindingTimeout => Sys2Proof.Machine.execPairBindingTimeout s
  | .doorbellSnoop f r tail head => Sys2Proof.Machine.execDoorbellSnoop f r tail head s
  | .doorbellPoll f r tail head => Sys2Proof.Machine.execDoorbellPoll f r tail head s
  | .submitRequest f r d args prompt resume => Sys2Proof.Machine.execSubmitRequest f r d args prompt resume s
  | .cancel f r d => Sys2Proof.Machine.execCancel f r d s
  | .loadModel f r d args => Sys2Proof.Machine.execLoadModel f r d args s
  | .swapModel f r d args => Sys2Proof.Machine.execSwapModel f r d args s
  | .loadAdapter f r d args => Sys2Proof.Machine.execLoadAdapter f r d args s
  | .retireAdapter f r d => Sys2Proof.Machine.execRetireAdapter f r d s
  | .setBudget f r d => Sys2Proof.Machine.execSetBudget f r d s
  | .launchProgram f r d args image => Sys2Proof.Machine.execLaunchProgram f r d args image s
  | .abortProgram f r d => Sys2Proof.Machine.execAbortProgram f r d s
  | .query f r d => Sys2Proof.Machine.execQuery f r d s
  | .imageLoad => Sys2Proof.Machine.execImageLoad s
  | .loadPathNext => Sys2Proof.Machine.execLoadPathNext s
  | .adapterWaitTimeout => Sys2Proof.Machine.execAdapterWaitTimeout s
  | .slotZeroingComplete n => Sys2Proof.Machine.execSlotZeroingComplete n s
  | .adapterZeroingComplete n => Sys2Proof.Machine.execAdapterZeroingComplete n s
  | .pageZeroingComplete unit => Sys2Proof.Machine.execPageZeroingComplete unit s
  | .intakeComplete req => Sys2Proof.Machine.execIntakeComplete req s
  | .boundaryStart => Sys2Proof.Machine.execBoundaryStart s
  | .journalWriteComplete => Sys2Proof.Machine.execJournalWriteComplete s
  | .completionRingRoom f r head => Sys2Proof.Machine.execCompletionRingRoom f r head s
  | .eventLost f head => Sys2Proof.Machine.execEventLost f head s
  | .interruptCoalesceTimeout f r => Sys2Proof.Machine.execInterruptCoalesceTimeout f r s
  | .msixUnmask f vec => Sys2Proof.Machine.execMsixUnmask f vec s
  | .headSign => Sys2Proof.Machine.execHeadSign s
  | .hostSharedAccess write dpa bytes => Sys2Proof.Machine.execHostSharedAccess write dpa bytes s
  | .spdmRequest version signed => Sys2Proof.Machine.execSpdmRequest version signed s
  | .keyExchange session anchor valid => Sys2Proof.Machine.execKeyExchange session anchor valid s
  | .getMeasurements index => Sys2Proof.Machine.execGetMeasurements index s
  | .debugTokenSubmit token => Sys2Proof.Machine.execDebugTokenSubmit token s
  | .debugUnlockExpiry => Sys2Proof.Machine.execDebugUnlockExpiry s
  | .stileWatchdogExpiry ramMatches => Sys2Proof.Machine.execStileWatchdogExpiry ramMatches s
  | .fwLoad image => Sys2Proof.Machine.execFwLoad image s
  | .coldReset strap d49Lost => Sys2Proof.Machine.execColdReset strap d49Lost s
  | .bootRomStart slotA slotB => Sys2Proof.Machine.execBootRomStart slotA slotB s
  | .bringUpStart => Sys2Proof.Machine.execBringUpStart s
  | .heathSwitchOn h => Sys2Proof.Machine.execHeathSwitchOn h s
  | .powerGoodTimeout h => Sys2Proof.Machine.execPowerGoodTimeout h s
  | .heathSelfTestDone h r => Sys2Proof.Machine.execHeathSelfTestDone h r s
  | .channelTrainingDone c ok => Sys2Proof.Machine.execChannelTrainingDone c ok s
  | .ddrInitZeroDone => Sys2Proof.Machine.execDdrInitZeroDone s
  | .warmReset => Sys2Proof.Machine.execWarmReset s
  | .powerGoodLoss pg => Sys2Proof.Machine.execPowerGoodLoss pg s
  | .refclkLoss tick => Sys2Proof.Machine.execRefclkLoss tick s
  | .heathLoss h cause => Sys2Proof.Machine.execHeathLoss h cause s
  | .rimDieLoss d => Sys2Proof.Machine.execRimDieLoss d s
  | .thermalLevelRise h temp => Sys2Proof.Machine.execThermalLevelRise h temp s
  | .thermalLevelFall h temp => Sys2Proof.Machine.execThermalLevelFall h temp s
  | .thermalTrip sensor temp => Sys2Proof.Machine.execThermalTrip sensor temp s
  | .powerCapInterval watts => Sys2Proof.Machine.execPowerCapInterval watts s
  | .pcapAssert => Sys2Proof.Machine.execPcapAssert s
  | .avsVidRaise h => Sys2Proof.Machine.execAvsVidRaise h s
  | .avsVidLower h => Sys2Proof.Machine.execAvsVidLower h s
  | .avsFault h => Sys2Proof.Machine.execAvsFault h s
  | .mctpPowerCap watts => Sys2Proof.Machine.execMctpPowerCap watts s
  | .pcapDeassert => Sys2Proof.Machine.execPcapDeassert s
  | .hostPortLinkTrained l => Sys2Proof.Machine.execHostPortLinkTrained l s
  | .hdmDecoderCommit => Sys2Proof.Machine.execHdmDecoderCommit s

end Sys2Proof.Machine
end

