-- ==== Sys2Proof/Safety.lean ====
section
/-! DEFINITION. The terms in which claims speak: when a core's next instruction issues, what a step leaves alone, and the form that every memory keeps. -/

namespace Sys2Proof.Machine

open Sys2Proof

/-! ### Issue -/

/-- The word at core `v`'s pc, as its instruction store delivers it (R96). -/
def fetched (s : State) (v : Nat) : DWord := storeWord (coreAt s v) (coreAt s v).pc

/-- Core `v` can issue, its fetch meets no fault, and its next instruction has opcode `op`. -/
def Issues (s : State) (v op : Nat) : Prop :=
  canIssue s v = true ∧ fetchFault s v = none ∧ opOf (fetched s v).toNat = op

/-- Core `v`'s next instruction is VSYS with function `fn` (table of R105), and it issues. -/
def IssuesSys (s : State) (v fn : Nat) : Prop :=
  Issues s v 0x17 ∧ bits (fetched s v).toNat 23 19 = fn

/-- The instruction passes the checks that come with its issue: operand alignment and format pairs
(R77, R88, R135) and the stroke's power profile (R219). -/
def UnitReady (s : State) (v : Nat) : Prop :=
  (opOf (fetched s v).toNat < 0x10 → pressIssueOk (coreAt s v) (fetched s v).toNat = true) ∧
  overdrawFlt s v (fetched s v).toNat = none

/-! ### What a step leaves alone -/

/-- Nothing but core `v` differs. -/
def OnlyCore (s t : State) (v : Nat) : Prop :=
  { t with cores := s.cores } = s ∧ ∀ u, u ≠ v → coreAt t u = coreAt s u

/-- Nothing but core `v` and the count of corrected words of its heath differs (R137). -/
def OnlyCoreCe (s t : State) (v : Nat) : Prop :=
  { t with cores := s.cores, heaths := s.heaths } = s ∧ (∀ u, u ≠ v → coreAt t u = coreAt s u) ∧
  (∀ h, h ≠ heathOf s v → heathAt t h = heathAt s h) ∧
  heathAt t (heathOf s v) = { heathAt s (heathOf s v) with
    ce := (heathAt t (heathOf s v)).ce, ceWin := (heathAt t (heathOf s v)).ceWin }

/-- Nothing but heath `h` differs. -/
def OnlyHeath (s t : State) (h : Nat) : Prop :=
  { t with heaths := s.heaths } = s ∧ ∀ g, g ≠ h → heathAt t g = heathAt s g

/-- Nothing but link `n` differs. -/
def OnlyLink (s t : State) (n : Nat) : Prop :=
  { t with links := s.links } = s ∧ ∀ m, m ≠ n → linkAt t m = linkAt s m

/-- Every byte of the plate outside `n` bytes from `a` on reads as before. -/
def PlateKept (c d : Core) (a n : Nat) : Prop :=
  ∀ x, x < a ∨ a + n ≤ x → memByte d.plate x = memByte c.plate x

/-- A queue may read `n` bytes of a plate from `a` on, and each word of them can be corrected (R101, R118, R137). -/
def Readable (c : Core) (owner a n : Nat) : Prop :=
  checkPlate c.tags owner a n false = none ∧ badWords c.plate a n = []

/-- A queue may write `n` bytes of a plate from `a` on, and each word that the write covers in part can be
corrected (R101, R118, R134). -/
def Writable (c : Core) (owner a n : Nat) : Prop :=
  checkPlate c.tags owner a n true = none ∧ ∀ w ∈ partWords a n, badWords c.plate (8 * w) 8 = []

/-- The elements of one tile row (R71), and the bytes that they and their scales take. -/
def rowElems (o : TileLoad) : Nat := o.kseg * ((classOf o.fmt).map classSeg).getD 0
def rowBytes (o : TileLoad) : Nat := rowElems o * elemWidth (fmtElem o.fmt) / 8
def rowScales (o : TileLoad) : Nat := if fmtMx o.fmt then rowElems o / 32 else 0

/-- Row `r` of a tile load's source: its elements and its scales can be read. -/
def RowReadable (c : Core) (o : TileLoad) (r : Nat) : Prop :=
  Readable c ownPress (o.elem + r * o.row) (rowBytes o) ∧
  (fmtMx o.fmt = true → Readable c ownPress (o.scale + r * o.srow) (rowScales o))

/-- Row `i` of a tile holds row `r` of a tile load's source, as the plate held it. -/
def HoldsRow (t : Tile) (i : Nat) (c : Core) (o : TileLoad) (r : Nat) : Prop :=
  nth [] t.elems i =
    unpackElems (elemWidth (fmtElem o.fmt)) (rowElems o) (memGet c.plate (o.elem + r * o.row) (rowBytes o)) ∧
  nth [] t.scales i = (memGet c.plate (o.scale + r * o.srow) (rowScales o)).map (·.toNat)

/-- The class, the slot and the bytes of a stream's image (R75, R76). -/
def streamClass (o : Stream) : OpClass := (classOf o.fmt).getD .fp8
def imageSize (o : Stream) (kseg : Nat) : Nat := (o.n + kseg - 1) * (kseg * slotBytes (streamClass o) o.fmt)

/-- The image of a STREAM can be read: every line of it, pad slots among them; none where no tile is loaded
(R79, R510). -/
def ImageReadable (c : Core) (o : Stream) (kseg : Nat) : Prop :=
  kseg ≠ 0 → Readable c ownPress o.base (imageSize o kseg)

/-- The image of a VMP_STREAM can be read: the queue may read all of it, and the words of the slots that are
read can be corrected (R89). -/
def SlotsReadable (c : Core) (o : Stream) (kseg : Nat) : Prop :=
  kseg ≠ 0 → checkPlate c.tags ownPress o.base (imageSize o kseg) false = none ∧
    let slot := slotBytes (streamClass o) o.fmt
    ∀ n j, n < o.n → j < kseg → badWords c.plate (slotOffset o.base (kseg * slot) slot n j) slot = []

/-- Lane `k` of vector register `r` (R93). -/
def lane (c : Core) (r k : Nat) : Word := look 0 c.vregs (64 * r + k)

/-- Element `k` of a list of numbers, 0 past its end. -/
def pick (l : List Nat) (k : Nat) : Nat := l.getD k 0

/-- The flag word of core `d` is that of core `c` with the flags of `n` results ORed in, those of result `k` where
`on k`; with the flags of a result comes the source bit of its unit (R66). -/
def FlagsRaised (c d : Core) (src : Word) (n : Nat) (on : Nat → Bool) (fl : Nat → Word) : Prop :=
  ∀ b, b < 32 → d.sticky.getLsbD b =
    (c.sticky.getLsbD b || (List.range n).any fun k => on k && (withSrc src (fl k)).getLsbD b)

/-- The flag word of core `d` is that of core `c` with the flags `fl` and the source bit of their unit ORed in
(R66). -/
def FlagRaised (c d : Core) (src fl : Word) : Prop := FlagsRaised c d src 1 (fun _ => true) (fun _ => fl)

/-- What a stream leaves in the word of row `i` and column `n` of one tile, and the flags that it raises (R73, R78). -/
def streamed (c : Core) (o : Stream) (ts : List Tile) (a i n : Nat) (old : Word) : Word × Word :=
  let k := streamClass o
  let kseg := streamKseg ts
  let t := nth {} ts a
  streamWord k o.fresh t i (if rowActive t i then rowGroups k t i else [])
    (columnGroups c.plate k o.fmt o.base (kseg * slotBytes k o.fmt) kseg n) old

/-- A stream over `as` arrays has raised the flags of each of its words (R66, R67). -/
def StreamFlags (c d : Core) (o : Stream) (ts : List Tile) (width as : Nat) (acc : FMap Word) : Prop :=
  ∀ b, b < 32 → (d.sticky.getLsbD b = true ↔ c.sticky.getLsbD b = true ∨ ∃ a i n, a < as ∧ i < 8 ∧ n < o.n ∧
    (withSrc fPRESS (streamed c o ts a i n (look 0 acc (accKey width a i (o.a0 + n)))).2).getLsbD b = true)

/-! ### DMA -/

/-- The engine of core `v`'s next instruction, a DMA one, and its descriptor as captured at issue (R109, R115). -/
def dmaEngine (s : State) (v : Nat) : Nat := bits (fetched s v).toNat 52 52
def dmaOp (s : State) (v : Nat) : DmaOp := captureDesc s.tick.gtc (coreAt s v) (fetched s v)

/-- A DMA instruction may issue: its descriptor lies within the table and reads without an uncorrectable word, its
flag is free, and its engine's queue has room (R95, R109, R122). -/
def DmaReady (s : State) (v : Nat) : Prop :=
  let c := coreAt s v
  let w := (fetched s v).toNat
  c.codeEnd + 8 * bits w 51 39 + 8 ≤ 65536 ∧
  (bit w 24 = true → c.flagSet.getLsbD (bits w 30 25) = false ∧ c.flagPend.getLsbD (bits w 30 25) = false) ∧
  (look [] c.dma (dmaEngine s v)).length < 16 ∧
  ∀ i, i < 8 → storeBad c (c.codeEnd + 8 * bits w 51 39 + i) = false

/-- Core `v` with its next instruction's descriptor in the engine's queue, its flag pending. -/
def dmaQueued (s : State) (v : Nat) (op : DmaOp) : Core :=
  let c := coreAt s v
  let w := (fetched s v).toNat
  { advancePc c with
    dma := put [] c.dma (dmaEngine s v) (look [] c.dma (dmaEngine s v) ++ [op])
    flagPend := if bit w 24 then c.flagPend ||| flagBit (bits w 30 25) else c.flagPend }

/-- The descriptor that issues is legal and has nothing before it in its engine (R95, R162, R163). -/
def DescReady (s : State) (v : Nat) : Prop :=
  DmaReady s v ∧ look [] (coreAt s v).dma (dmaEngine s v) = [] ∧ descOk (dmaOp s v) = true

/-- The descriptor has moved its bytes: it waits in its queue for its completion, and of its core nothing but the
plate and the flag word has changed besides. -/
def Moved (s t : State) (v : Nat) : Prop :=
  OnlyCoreCe s t v ∧ coreAt t v = { dmaQueued s v { dmaOp s v with moved := true } with
    plate := (coreAt t v).plate, sticky := (coreAt t v).sticky }

/-- The memory of one side of a descriptor: the plate of core `v`, or device memory. -/
def sideMem (s : State) (v : Nat) (plate : Bool) : Mem := if plate then (coreAt s v).plate else s.memory.ddr

/-- An access of core `v`'s descriptor passes its side's check, on the device side below the host-shared region
(R118, R139, R434). -/
def SideCheck (s : State) (v : Nat) (plate : Bool) (a n : Nat) (write : Bool) : Prop :=
  (plate = true → checkPlate (coreAt s v).tags (dOwner (dmaOp s v)) a n write = none) ∧
  (plate = false → a + n ≤ shareLo ∧ checkDev s.memory a n write = none)

/-- Every word of `n` bytes from `a` on can be corrected; those of device memory hold no error (R137, R157). -/
def SideSound (s : State) (v : Nat) (plate : Bool) (a n : Nat) : Prop :=
  badWords (sideMem s v plate) a n = [] ∧ (plate = false → correctedWords s.memory.ddr a n = [])

/-- The descriptor can read `n` bytes of a side from `a` on, and write them: no word that it writes in part is
uncorrectable (R134). -/
def SideReads (s : State) (v : Nat) (plate : Bool) (a n : Nat) : Prop :=
  SideCheck s v plate a n false ∧ SideSound s v plate a n
def SideWrites (s : State) (v : Nat) (plate : Bool) (a n : Nat) : Prop :=
  SideCheck s v plate a n true ∧ ∀ w ∈ partWords a n, badWords (sideMem s v plate) (8 * w) 8 = []

/-- The descriptor has moved its bytes to the plate, or to device memory, of which nothing else has changed. -/
def MovedTo (s t : State) (v : Nat) (plate : Bool) : Prop :=
  (plate = true → Moved s t v) ∧
  (plate = false → t.memory = { s.memory with ddr := t.memory.ddr } ∧ Moved s { t with memory := s.memory } v ∧
    (coreAt t v).plate = (coreAt s v).plate)

/-- Every byte of a side outside `n` bytes from `a` on reads as before. -/
def SideKept (s t : State) (v : Nat) (plate : Bool) (a n : Nat) : Prop :=
  ∀ x, x < a ∨ a + n ≤ x → memByte (sideMem t v plate) x = memByte (sideMem s v plate) x

/-! ### Descriptors and messages -/

/-- Ring `r` of function `f` has descriptor `d` of type `ty` waiting, it passes the common checks, and the
device is not fenced (R416, R419, R421; 12 R400). -/
def Reads (s : State) (f r : Nat) (d : BitVec 512) (ty : Nat) : Prop :=
  canRead s f r = true ∧ descType d = ty ∧ descRefusal (consume s f r) f d = none ∧ s.fab.part ≠ .fenced

/-- A management message is taken: the stile runs, its MVER is 1, it verifies under a key of its kind's, and its
SEQ is new (R7, R394, R445). -/
def Accepts (s : State) (k : KeyUse) (a : Auth) : Prop := s.stl.state = 1 ∧ authOk s k a = true ∧ a.mver = 1

/-- `t` is `s` with message `m` sent: noted, and put on VC0 of its first link, or dropped and counted there; nothing
else has changed (R354, R385, R387, R394). -/
def Sent (s t : State) (m : MgmtOut) : Prop :=
  { t with fab := s.fab, links := s.links } = s ∧
  { t.fab with ctr := s.fab.ctr, dropRoute := s.fab.dropRoute, cong := s.fab.cong } =
    { s.fab with mgmtOut := m :: s.fab.mgmtOut, mgmtSeq := s.fab.mgmtSeq + 1 } ∧
  ∀ n, linkAt t n = { linkAt s n with queue := (linkAt t n).queue } ∧
    ∀ vc, vc ≠ 0 → look [] (linkAt t n).queue vc = look [] (linkAt s n).queue vc

/-- The answer OK, or another status, to a message of the fabric manager. -/
def told (a : Auth) (mtype status : Nat) : MgmtOut :=
  { dst := a.sender, mtype := mtype, session := a.session, a := status }

/-- Nothing but function `f` differs. -/
def OnlyFn (s t : State) (f : Nat) : Prop :=
  { t with hif := { s.hif with fns := t.hif.fns } } = t ∧ { t with hif := s.hif } = s ∧
  ∀ g, g ≠ f → fnAt t g = fnAt s g

/-! ### Device memory -/

/-- No channel is due to fail or to be copied out (R151, R156). -/
def ChansQuiet (s : State) : Prop :=
  ∀ c, c < 80 → (chanAt s c).failed = true ∨
    ((chanAt s c).ue < 16 ∧ (chanAt s c).score ≤ max 16 s.memory.thresh)

/-- No word of a batch program's input range is in error, where the device forms its root (R151, R321). -/
def InputClean (s : State) : Prop :=
  s.prog.step = false → formsBatchProof s = true →
    badWords s.memory.ddr s.prog.args.inAddr s.prog.args.inBytes = [] ∧
    correctedWords s.memory.ddr s.prog.args.inAddr s.prog.args.inBytes = []

/-! ### Links -/

/-- Cores, device memory, the program and the load path stay. -/
def RestKept (s t : State) : Prop :=
  t.cores = s.cores ∧ t.memory = s.memory ∧ t.prog = s.prog ∧ t.load = s.load

/-- Link `n` is in DISCOVERY by its plan entry, with nothing known of its peer, its RECORD the last of its link
messages (R348, R355, R378). -/
def Discovers (s t : State) (n : Nat) : Prop :=
  (linkAt t n).state = .discovery ∧ (linkAt t n).hasRec = false ∧ (linkAt t n).verdict = none ∧
  (linkAt t n).peerVerdict = none ∧ (linkAt t n).proto = 1 ∧ (linkAt t n).planNow = (linkAt s n).plan ∧
  (loading s = none → RestKept s t) ∧
  ∃ q f, (linkAt t n).msgs = q ++ [f] ∧ f.linkmsg = true ∧ f.data = recordBytes (ownRecord t n)

/-- Link `n` is DOWN, or OFF, with a reason and nothing queued; with no program loaded and no load started,
nothing but links, the fabric's own state and what is told of it has changed (R343, R344). -/
def Downs (s t : State) (n : Nat) (st : LinkState) (reason : Nat) : Prop :=
  (linkAt t n).state = st ∧ (linkAt t n).reason = reason ∧ (linkAt t n).queue = [] ∧
  (linkAt t n).replay = [] ∧ (linkAt t n).rx = [] ∧
  (progLive s = false → loading s = none → RestKept s t)

/-! ### Packets -/

/-- The packet is for this device: no foreign key, version 1, no DISCARD (R383, R387, R395). -/
def Arrives (s : State) (p : Packet) : Prop :=
  foreignKey s p.vc p.pkey = false ∧ p.version = 1 ∧ p.dst = s.fab.id ∧ p.discard = false

/-- The commands by which a packet arrives. -/
def packetCommands (p : Packet) : List Instr :=
  [.data p, .readReq p, .writeReq p, .readResp p, .writeAck p, .window p]

/-! ### Management and loads -/

/-- The management commands, with the kind of key that authenticates each and what it carries (R394, R445). -/
def mgmtAuth : Instr → Option (KeyUse × Auth)
  | .launch a _ => some (.member, a)
  | .launchAnswer a _ => some (.member, a)
  | .planWrite a _ => some (.manager, a)
  | .planCommit a _ _ => some (.manager, a)
  | .teardown a => some (.manager, a)
  | .fencePorts a _ _ => some (.manager, a)
  | .fenceDevice a => some (.manager, a)
  | .unfence a => some (.manager, a)
  | .regRead a _ _ => some (.manager, a)
  | .regWrite a _ _ _ => some (.manager, a)
  | .response a _ => some (.any, a)
  | .abort a => some (.member, a)
  | .ready a _ => some (.member, a)
  | .verdict a _ _ => some (.member, a)
  | .drained a _ _ => some (.member, a)
  | .leafHashes a _ _ _ => some (.member, a)
  | .manifest a _ => some (.member, a)
  | .pair a _ => some (.pair, a)
  | .congMap a _ => some (.any, a)
  | _ => none

/-- The load `o` has failed: its slot or adapter slot is given up, and the load path is free or zeroes it
(R289, R294, R300). -/
def LoadFailed (t : State) (o : LoadOp) : Prop :=
  (o.kind = 1 → (slotAt t o.slot).state = .zeroing ∧
    t.load.cur = some { o with kind := 4, answer := false }) ∧
  (o.kind = 2 → (slotAt t o.slot).state = .failed ∧ t.load.cur = none ∧ t.load.swap = none) ∧
  (o.kind = 3 → (adapterAt t o.ad).state = .zeroing ∧ t.load.cur = none)

/-! ### Invariants -/

/-- Every memory of the device has its canonical form: device memory, the host's, and each plate. -/
def MemoryForm (s : State) : Prop :=
  s.memory.ddr.wf = true ∧ s.host.wf = true ∧ ∀ p ∈ s.cores, p.2.plate.wf = true

/-- The changes left of the one-time fuses have not risen, and what was revoked stays revoked (R460). -/
def FusesSpent (s t : State) : Prop :=
  t.lcf.left ≤ s.lcf.left ∧ t.lcf.rollLeft ≤ s.lcf.rollLeft ∧ t.lcf.revLeft ≤ s.lcf.revLeft ∧
  t.lcf.commits ≤ s.lcf.commits ∧ t.lcf.eligLeft ≤ s.lcf.eligLeft ∧ t.lcf.lockLeft ≤ s.lcf.lockLeft ∧
  t.die.downbinLeft ≤ s.die.downbinLeft ∧ t.lcf.revoked &&& s.lcf.revoked = s.lcf.revoked

end Sys2Proof.Machine
end

