-- ==== Sys2Proof/Certificates/Slice0/Obligations.lean ====
section
/-! DEFINITION. The statements for the provers: what each command does, in the order of the command table, then what holds of every step. -/

open Sys2Proof Sys2Proof.Machine

/-! ### A core's own instructions -/

/-- SETB, ADDB and MOP write the register they name, NOP writes none, OWN stages its owner for its frames and
leaves the tags of the stroke; everything else of the core but the pc and its loops, and everything outside
the core, stays (R113, R119; R93: B0 and M0 are never destinations of a word that issues). The model's own
choices in it: log 21. -/
def Obligations.SequencerRegistersWritten : Prop :=
  ∀ (s : State) (v : Nat),
    let c := coreAt s v
    let w := (fetched s v).toNat
    (Issues s v 0x30 → ∃ t, exec (.nop v) s = .next t ∧ OnlyCore s t v ∧ coreAt t v = advancePc c) ∧
    (Issues s v 0x32 → ∃ t, exec (.setb v) s = .next t ∧ OnlyCore s t v ∧
      coreAt t v = { advancePc c with base := (coreAt t v).base } ∧ bits w 52 49 ≠ 0 ∧
      (∀ b, b ≠ bits w 52 49 → baseOf (coreAt t v) b = baseOf c b) ∧
      (baseOf (coreAt t v) (bits w 52 49)).toNat =
        if bit w 48 then (baseOf c (bits w 52 49)).toNat % 2 ^ 32 + bits w 47 16 * 2 ^ 32
        else bits w 47 16) ∧
    (Issues s v 0x33 → ∃ t, exec (.addb v) s = .next t ∧ OnlyCore s t v ∧
      coreAt t v = { advancePc c with base := (coreAt t v).base } ∧ bits w 52 49 ≠ 0 ∧
      (∀ b, b ≠ bits w 52 49 → baseOf (coreAt t v) b = baseOf c b) ∧
      baseOf (coreAt t v) (bits w 52 49) =
        baseOf c (bits w 48 45) + BitVec.ofInt 64 (signedOf 32 (bits w 44 13))) ∧
    (Issues s v 0x34 → ∃ t, exec (.mop v) s = .next t ∧ OnlyCore s t v ∧
      coreAt t v = { advancePc c with mask := (coreAt t v).mask } ∧ bits w 52 50 ≠ 0 ∧
      (∀ m, m ≠ bits w 52 50 → maskOf (coreAt t v) m = maskOf c m) ∧
      let d := maskOf (coreAt t v) (bits w 52 50)
      let a := maskOf c (bits w 49 47)
      let b := maskOf c (bits w 46 44)
      (bits w 43 41 = 0 → d.extractLsb' 0 32 = BitVec.ofNat 32 (bits w 40 9) ∧
        d.extractLsb' 32 32 = (maskOf c (bits w 52 50)).extractLsb' 32 32) ∧
      (bits w 43 41 = 1 → d.extractLsb' 32 32 = BitVec.ofNat 32 (bits w 40 9) ∧
        d.extractLsb' 0 32 = (maskOf c (bits w 52 50)).extractLsb' 0 32) ∧
      (bits w 43 41 = 2 → d = a &&& b) ∧ (bits w 43 41 = 3 → d = a ||| b) ∧
      (bits w 43 41 = 4 → d = a &&& ~~~b) ∧ (bits w 43 41 = 5 → d = ~~~a) ∧
      (bits w 43 41 = 6 → d = a)) ∧
    (Issues s v 0x2B → ∃ t, exec (.own v) s = .next t ∧ OnlyCore s t v ∧
      coreAt t v = { advancePc c with staged := (coreAt t v).staged } ∧
      ∀ f, look 0 (coreAt t v).staged f =
        if bits w 52 42 ≤ f ∧ f < bits w 52 42 + bits w 41 31 + 1 then bits w 30 28 + 1
        else look 0 c.staged f)

/-- A LOOP that may start takes its counter, its body and its trip count, and goes on with the body's first
word; one that may not is an ILLEGAL_OP. At the last word of the innermost loop's body the sequencer goes back
to the first while iterations are left, and ends the loop when none is (R114). A WAIT on a flag that
is set clears it and goes on; on a pending flag it holds the sequencer; on one that is neither it is an
ILLEGAL_OP (R122). The model's own choices in it: logs 21 and 22. -/
def Obligations.LoopsTurnAndWaitsTakeFlags : Prop :=
  (∀ (s : State) (v : Nat), Issues s v 0x31 →
    let c := coreAt s v
    let w := (fetched s v).toNat
    let last := c.pc + bits w 34 19 + 1
    let may := c.loops.length < 4 ∧ (∀ l ∈ c.loops, l.lc ≠ bits w 52 51) ∧ last < c.codeEnd ∧
      ∀ l, c.loops.head? = some l → last ≤ l.last
    (may → ∃ t, exec (.loop v) s = .next t ∧ OnlyCore s t v ∧
      coreAt t v = { c with pc := c.pc + 1, loops :=
        { lc := bits w 52 51, first := c.pc + 1, last := last, left := bits w 50 35 } :: c.loops }) ∧
    (¬ may → exec (.loop v) s = .next (issueIllegal s v (fetched s v)))) ∧
  (∀ (c : Core),
    (c.loops = [] → advancePc c = { c with pc := c.pc + 1 }) ∧
    (∀ l r, c.loops = l :: r → l.last ≠ c.pc → advancePc c = { c with pc := c.pc + 1 }) ∧
    (∀ l r, c.loops = l :: r → l.last = c.pc → 0 < l.left →
      advancePc c = { c with pc := l.first, loops := { l with left := l.left - 1 } :: r }) ∧
    (∀ l r, c.loops = l :: r → l.last = c.pc → l.left = 0 → advancePc c = advancePc { c with loops := r })) ∧
  ∀ (s : State) (v : Nat), Issues s v 0x29 →
    let c := coreAt s v
    let f := bits (fetched s v).toNat 52 47
    (c.flagSet.getLsbD f = true → ∃ t, exec (.wait v) s = .next t ∧ OnlyCore s t v ∧
      coreAt t v = { advancePc c with flagSet := (coreAt t v).flagSet } ∧
      ∀ g, (coreAt t v).flagSet.getLsbD g = (c.flagSet.getLsbD g && decide (g ≠ f))) ∧
    (c.flagSet.getLsbD f = false → c.flagPend.getLsbD f = true → exec (.wait v) s = .next s) ∧
    (c.flagSet.getLsbD f = false → c.flagPend.getLsbD f = false →
      exec (.wait v) s = .next (issueIllegal s v (fetched s v)))

/-- STROKE_END and HALT in a stroke hold the core from now on, until all of R125 holds; in a setup section
before the first launch they end the section, and after it they go on in the running stroke (R97, R128). A core
that waits at either with nothing left to complete latches its record, the stroke's index and its flag word, and reports stroke end (R125, R127, R128).
The model's own choices in it: log 21. -/
def Obligations.StrokeEndAndHaltHoldThenReport : Prop :=
  ∀ (s : State) (v : Nat),
    let c := coreAt s v
    (Issues s v 0x28 → c.inSetup = false → ∃ t, exec (.strokeEnd v) s = .next t ∧ OnlyCore s t v ∧
      coreAt t v = { advancePc c with phase := .ending, halting := false }) ∧
    (Issues s v 0x37 → c.inSetup = false → ∃ t, exec (.halt v) s = .next t ∧ OnlyCore s t v ∧
      coreAt t v = { advancePc c with phase := .ending, halting := true }) ∧
    (Issues s v 0x28 → c.inSetup = true → s.tick.launched = false →
      ∃ t, exec (.strokeEnd v) s = .next t ∧ OnlyCore s t v ∧
        coreAt t v = { advancePc c with phase := .ready, inSetup := false, halting := false }) ∧
    (Issues s v 0x37 → c.inSetup = true → s.tick.launched = false →
      ∃ t, exec (.halt v) s = .next t ∧ OnlyCore s t v ∧
        coreAt t v = { advancePc c with phase := .ready, inSetup := false, halting := true }) ∧
    (c.inSetup = true → s.tick.launched = true →
      let late := { takeStaged (advancePc c) with
        phase := .run, inSetup := false, halting := false, flagSet := 0, flagPend := 0, sticky := 0
        pc := (entryWord s).getD (advancePc c).pc, strokeIx := s.tick.stroke }
      (Issues s v 0x28 → ∃ t, exec (.strokeEnd v) s = .next t ∧ OnlyCore s t v ∧ coreAt t v = late) ∧
      (Issues s v 0x37 → ∃ t, exec (.halt v) s = .next t ∧ OnlyCore s t v ∧ coreAt t v = late)) ∧
    (mapped s v = true → c.phase = .ending → look [] c.dma 0 = [] → look [] c.dma 1 = [] → c.xf = [] →
      c.recvs = [] →
      ∃ t, exec (.coreStrokeEndReached v) s = .next t ∧
        coreAt t v = { c with phase := if c.halting then .halted else .ended, record := (coreAt t v).record } ∧
        (coreAt t v).record.toNat = c.strokeIx % 2 ^ 32 + c.sticky.toNat * 2 ^ 32 ∧
        (∀ u, u ≠ v → coreAt t u = coreAt s u))

/-! ### The press, the VMP and the vector unit -/

/-- LOAD_TILE and VMP_LOAD complete where every row that they load, and in an MX format its scales, can be
read. LOAD_TILE loads the shadow tiles of the arrays it names with its format, KSEG, row mask and rows, VMP_LOAD
the VMP's shadow rows; the active tiles and all else of the core stay (R71, R72, R88). The model's own choices in
it: logs 21 and 22. -/
def Obligations.TileLoadsComplete : Prop :=
  ∀ (s : State) (v : Nat), UnitReady s v →
    let c := coreAt s v
    let w := (fetched s v).toNat
    let o := tileLoad c w
    (Issues s v 0x00 → (∀ a i, a ∈ arraysOf (bits w 52 49) → i < 8 → RowReadable c o (8 * a + i)) →
      ∃ t, exec (.loadTile v) s = .next t ∧ OnlyCoreCe s t v ∧
        coreAt t v = { advancePc c with tiles := (coreAt t v).tiles } ∧
        (∀ a, look {} (coreAt t v).tiles (activeTile a) = look {} c.tiles (activeTile a)) ∧
        (∀ a, ¬ a ∈ arraysOf (bits w 52 49) →
          look {} (coreAt t v).tiles (shadowTile a) = look {} c.tiles (shadowTile a)) ∧
        ∀ a, a ∈ arraysOf (bits w 52 49) →
          let u := look {} (coreAt t v).tiles (shadowTile a)
          u.loaded = true ∧ u.fmt.toNat = bits w 48 44 ∧ u.kseg = bits w 43 41 + 1 ∧
          ∀ i, i < 8 → u.mask.getLsbD i = (maskOf c (predOf w)).getLsbD (8 * a + i) ∧
            HoldsRow u i c o (8 * a + i)) ∧
    (Issues s v 0x08 → (∀ i, i < 8 → RowReadable c o i) →
      ∃ t, exec (.vmpLoad v) s = .next t ∧ OnlyCoreCe s t v ∧
        coreAt t v = { advancePc c with vtiles := (coreAt t v).vtiles } ∧
        look {} (coreAt t v).vtiles 0 = look {} c.vtiles 0 ∧
        let u := look {} (coreAt t v).vtiles 1
        u.loaded = true ∧ u.fmt.toNat = bits w 48 44 ∧ u.kseg = bits w 43 41 + 1 ∧
        ∀ i, i < 8 → u.mask.getLsbD i = (maskOf c (predOf w)).getLsbD i ∧ HoldsRow u i c o i)

/-- A STREAM or VMP_STREAM whose image can be read completes: it changes accumulator words of its own columns
alone, exchanges its tiles where SWAP says so, and ORs the flags of each of its words, with the press's source bit,
into the flag word (R66, R74, R77, R89, R510). The model's own choices
in it: logs 21 and 22; log 101, the flags of a group with a NaN element. -/
def Obligations.StreamsComplete : Prop :=
  ∀ (s : State) (v : Nat), UnitReady s v →
    let c := coreAt s v
    let w := (fetched s v).toNat
    let o := pressStream c w
    let q := vmpStream c w
    (Issues s v 0x01 → ImageReadable c o (streamKseg (pressTiles c o.swap)) →
      ∃ t, exec (.stream v) s = .next t ∧ OnlyCoreCe s t v ∧
        coreAt t v = { advancePc c with
          acc := (coreAt t v).acc, tiles := (coreAt t v).tiles, sticky := (coreAt t v).sticky } ∧
        StreamFlags c (coreAt t v) o (pressTiles c o.swap) accCols 4 c.acc ∧
        (bit w 20 = false → (coreAt t v).tiles = c.tiles) ∧
        (bit w 20 = true → ∀ a, a < 4 →
          look {} (coreAt t v).tiles (activeTile a) = look {} c.tiles (shadowTile a) ∧
          look {} (coreAt t v).tiles (shadowTile a) = look {} c.tiles (activeTile a)) ∧
        ∀ a i col, a < 4 → i < 8 → col < 2048 →
          (col < bits w 37 27 ∨ bits w 37 27 + bits w 48 38 + 1 ≤ col) →
          look 0 (coreAt t v).acc (accKey accCols a i col) = look 0 c.acc (accKey accCols a i col)) ∧
    (Issues s v 0x09 → SlotsReadable c q (streamKseg (vmpTiles c q.swap)) →
      ∃ t, exec (.vmpStream v) s = .next t ∧ OnlyCoreCe s t v ∧
        coreAt t v = { advancePc c with
          vacc := (coreAt t v).vacc, vtiles := (coreAt t v).vtiles, sticky := (coreAt t v).sticky } ∧
        StreamFlags c (coreAt t v) q (vmpTiles c q.swap) vaccCols 1 c.vacc ∧
        (bit w 26 = false → (coreAt t v).vtiles = c.vtiles) ∧
        (bit w 26 = true →
          look {} (coreAt t v).vtiles 0 = look {} c.vtiles 1 ∧
          look {} (coreAt t v).vtiles 1 = look {} c.vtiles 0) ∧
        ∀ i col, i < 8 → col < 256 →
          (col < bits w 40 33 ∨ bits w 40 33 + bits w 48 41 + 1 ≤ col) →
          look 0 (coreAt t v).vacc (accKey vaccCols 0 i col) = look 0 c.vacc (accKey vaccCols 0 i col))

/-- A STREAM or VMP_STREAM leaves in each accumulator word of its columns what R73 and R78 say of its row's tile
and its column's groups: the old word, or +0 where the stream is fresh, with the column's groups added where the
row is active. The model's own choices in it: logs 21 and 22. -/
def Obligations.StreamAddsItsColumns : Prop :=
  ∀ (s : State) (v : Nat), UnitReady s v →
    let c := coreAt s v
    let w := (fetched s v).toNat
    let added := fun (o : Stream) (ts : List Tile) (a i n : Nat) (old : Word) =>
      let k := streamClass o
      let kseg := streamKseg ts
      (streamWord k o.fresh (nth {} ts a) i
        (if rowActive (nth {} ts a) i then rowGroups k (nth {} ts a) i else [])
        (columnGroups c.plate k o.fmt o.base (kseg * slotBytes k o.fmt) kseg n) old).1
    (let o := pressStream c w
     let ts := pressTiles c o.swap
     Issues s v 0x01 → ImageReadable c o (streamKseg ts) →
      ∃ t, exec (.stream v) s = .next t ∧
        ∀ a i n, a < 4 → i < 8 → n < o.n →
          look 0 (coreAt t v).acc (accKey accCols a i (o.a0 + n)) =
            added o ts a i n (look 0 c.acc (accKey accCols a i (o.a0 + n)))) ∧
    (let o := vmpStream c w
     let ts := vmpTiles c o.swap
     Issues s v 0x09 → SlotsReadable c o (streamKseg ts) →
      ∃ t, exec (.vmpStream v) s = .next t ∧
        ∀ i n, i < 8 → n < o.n →
          look 0 (coreAt t v).vacc (accKey vaccCols 0 i (o.a0 + n)) =
            added o ts 0 i n (look 0 c.vacc (accKey vaccCols 0 i (o.a0 + n))))

/-- DRAIN and VMP_DRAIN complete where their destination can be written (a DRAIN of no array writes nothing): they
write the accumulator words of their columns to the plate and, where they say so, clear them; ACC_CLEAR and VMP_CLEAR write zero to the accumulator words of the columns and arrays they name;
no other accumulator word and no other byte of the plate changes (R81, R82, R88). The model's own choices in
it: logs 21 and 22. -/
def Obligations.DrainsAndClears : Prop :=
  ∀ (s : State) (v : Nat), UnitReady s v →
    let c := coreAt s v
    let w := (fetched s v).toNat
    let as := arraysOf (bits w 52 49)
    let hit := fun (col : Nat) => drainC0 w ≤ col ∧ col < drainC0 w + drainN w
    let bs := word32Bytes (drainWords c.acc accCols (drainC0 w) (drainN w) as)
    let vs := word32Bytes (drainWords c.vacc vaccCols (drainC0 w) (drainN w) [0])
    (Issues s v 0x02 → (as = [] ∨ Writable c ownPress (drainDest c w) bs.length) →
      ∃ t, exec (.drain v) s = .next t ∧ OnlyCoreCe s t v ∧
        coreAt t v = { advancePc c with plate := (coreAt t v).plate, acc := (coreAt t v).acc } ∧
        (∀ a i col, a < 4 → i < 8 → col < 2048 →
          look 0 (coreAt t v).acc (accKey accCols a i col) =
            if bit w 22 = true ∧ a ∈ as ∧ hit col then 0 else look 0 c.acc (accKey accCols a i col)) ∧
        PlateKept c (coreAt t v) (drainDest c w) bs.length ∧
        ∀ k, k < bs.length → memByte (coreAt t v).plate (drainDest c w + k) = bs.getD k 0) ∧
    (Issues s v 0x0A → Writable c ownPress (drainDest c w) vs.length →
      ∃ t, exec (.vmpDrain v) s = .next t ∧ OnlyCoreCe s t v ∧
        coreAt t v = { advancePc c with plate := (coreAt t v).plate, vacc := (coreAt t v).vacc } ∧
        (∀ i col, i < 8 → col < 256 →
          look 0 (coreAt t v).vacc (accKey vaccCols 0 i col) =
            if bit w 22 = true ∧ hit col then 0 else look 0 c.vacc (accKey vaccCols 0 i col)) ∧
        PlateKept c (coreAt t v) (drainDest c w) vs.length ∧
        ∀ k, k < vs.length → memByte (coreAt t v).plate (drainDest c w + k) = vs.getD k 0) ∧
    (Issues s v 0x03 →
      ∃ t, exec (.accClear v) s = .next t ∧ OnlyCore s t v ∧
        coreAt t v = { advancePc c with acc := (coreAt t v).acc } ∧
        ∀ a i col, a < 4 → i < 8 → col < 2048 →
          look 0 (coreAt t v).acc (accKey accCols a i col) =
            if a ∈ as ∧ hit col then 0 else look 0 c.acc (accKey accCols a i col)) ∧
    (Issues s v 0x0B →
      ∃ t, exec (.vmpClear v) s = .next t ∧ OnlyCore s t v ∧
        coreAt t v = { advancePc c with vacc := (coreAt t v).vacc } ∧
        ∀ i col, i < 8 → col < 256 →
          look 0 (coreAt t v).vacc (accKey vaccCols 0 i col) =
            if hit col then 0 else look 0 c.vacc (accKey vaccCols 0 i col))

/-- VALU, VFN and VLANE write the lanes of VD whose mask bits are set, each with the function's result, and
leave every other lane and register; VALU and VFN OR the flags of those lanes, with the vector unit's source bit,
into the flag word, and VLANE raises none (R66, R106, R107). The model's own choices in it: logs 21, 22 and
27; log 101, NANIN of a NaN input of VFN. -/
def Obligations.LaneInstructionsWriteTheirLanes : Prop :=
  ∀ (s : State) (v : Nat), UnitReady s v →
    let c := coreAt s v
    let w := (fetched s v).toNat
    let d := bits w 52 48
    let fn := bits w 32 28
    (Issues s v 0x12 →
      let rs := drawWords c (bits w 26 25 == 2) 64 (bits w 24 22) (bits w 21 18)
      let r := fun k => valuLane fn (bits w 26 25) (bit w 27) (pick rs k) (lane c (bits w 47 43) k)
        (lane c (bits w 42 38) k) (lane c (bits w 37 33) k)
      ∃ t, exec (.valu v) s = .next t ∧ OnlyCore s t v ∧
        coreAt t v = { advancePc c with vregs := (coreAt t v).vregs, sticky := (coreAt t v).sticky } ∧
        FlagsRaised c (coreAt t v) fVEC 64 (laneOn c w) (fun k => (r k).2) ∧
        (∀ q k, q ≠ d → k < 64 → lane (coreAt t v) q k = lane c q k) ∧
        ∀ k, k < 64 → lane (coreAt t v) d k = if laneOn c w k then (r k).1 else lane c d k) ∧
    (Issues s v 0x13 →
      let rs := drawWords c (decide (6 ≤ fn)) 64 (bits w 24 22) (bits w 21 18)
      let r := fun k => vfnLane fn (pick rs k) (lane c (bits w 47 43) k)
      ∃ t, exec (.vfn v) s = .next t ∧ OnlyCore s t v ∧
        coreAt t v = { advancePc c with vregs := (coreAt t v).vregs, sticky := (coreAt t v).sticky } ∧
        FlagsRaised c (coreAt t v) fVEC 64 (laneOn c w) (fun k => (r k).2) ∧
        (∀ q k, q ≠ d → k < 64 → lane (coreAt t v) q k = lane c q k) ∧
        ∀ k, k < 64 → lane (coreAt t v) d k = if laneOn c w k then (r k).1 else lane c d k) ∧
    (Issues s v 0x16 →
      ∃ t, exec (.vlane v) s = .next t ∧ OnlyCore s t v ∧
        coreAt t v = { advancePc c with vregs := (coreAt t v).vregs } ∧
        (∀ r k, r ≠ d → k < 64 → lane (coreAt t v) r k = lane c r k) ∧
        ∀ k, k < 64 → lane (coreAt t v) d k = if laneOn c w k then
            (if fn = 0 then lane c (bits w 47 43) (bits w 17 12)
             else if fn = 1 then (if k < bits w 17 12 then 0 else lane c (bits w 47 43) (k - bits w 17 12))
             else if k + bits w 17 12 < 64 then lane c (bits w 47 43) (k + bits w 17 12) else 0)
          else lane c d k)

/-- VRED writes the tree's result to lane 0 of VD, or to every lane with BCAST, masked lanes counting as the
operation's neutral value, and raises the flags of the tree; VMASK writes one bit for each lane, 0 for a masked one,
and raises NANIN where it compares a NaN (R63, R66, R107). The model's own choices in it: logs 21 and 27. -/
def Obligations.ReductionsAndComparisons : Prop :=
  ∀ (s : State) (v : Nat), UnitReady s v →
    let c := coreAt s v
    let w := (fetched s v).toNat
    let fn := bits w 32 28
    (Issues s v 0x14 →
      let rs := drawWords c (bits w 26 25 == 2) 63 (bits w 24 22) (bits w 21 18)
      let vs := (List.range 64).map fun k => if laneOn c w k then lane c (bits w 47 43) k else redFill fn
      let r := treeReduce fn (bits w 26 25) (bit w 27) 6 vs rs
      ∃ t, exec (.vred v) s = .next t ∧ OnlyCore s t v ∧
        coreAt t v = { advancePc c with vregs := (coreAt t v).vregs, sticky := (coreAt t v).sticky } ∧
        FlagRaised c (coreAt t v) fVEC (r.2 ||| nanIn vs) ∧
        ∀ q k, k < 64 → lane (coreAt t v) q k =
          if q = bits w 52 48 ∧ (k = 0 ∨ bit w 12 = true) then r.1 else lane c q k) ∧
    (Issues s v 0x15 →
      ∃ t, exec (.vmask v) s = .next t ∧ OnlyCore s t v ∧
        coreAt t v = { advancePc c with mask := (coreAt t v).mask, sticky := (coreAt t v).sticky } ∧
        FlagsRaised c (coreAt t v) fVEC 64 (laneOn c w)
          (fun k => nanIn [lane c (bits w 47 43) k, lane c (bits w 42 38) k]) ∧
        (∀ m, m ≠ bits w 50 48 → maskOf (coreAt t v) m = maskOf c m) ∧
        ∀ k, k < 64 → (maskOf (coreAt t v) (bits w 50 48)).getLsbD k =
          (laneOn c w k && fpCmp fn (lane c (bits w 47 43) k) (lane c (bits w 42 38) k)))

/-- VLD widens each element it reads into its lane and raises those lanes' flags, MLD and NLD load a mask register
and a random context from the plate, and where bit 0 of their mask is clear they check their range alone and load
nothing; nothing else of the core changes (R66, R103, R105). The model's own choices in it: log 21; log 82, the wrap
of an address modulo 2^64. -/
def Obligations.VectorLoadsComplete : Prop :=
  ∀ (s : State) (v : Nat), UnitReady s v →
    let c := coreAt s v
    let w := (fetched s v).toNat
    let a := vecAddr c w
    (∀ fmt sb, fmt = bits w 23 19 → sb = (if fmtMx fmt then 2 else 0) →
      let n := 8 * elemWidth (fmtElem fmt)
      Issues s v 0x10 → a % 8 = 0 → Readable c ownVec a n → (sb ≠ 0 → Readable c ownVec (vecScaleAddr c w) sb) →
      ∃ t, exec (.vld v) s = .next t ∧ OnlyCoreCe s t v ∧
        coreAt t v = { advancePc c with vregs := (coreAt t v).vregs, sticky := (coreAt t v).sticky } ∧
        (let r := fun k => widen fmt (pick (unpackElems (elemWidth (fmtElem fmt)) 64 (memGet c.plate a n)) k)
          (pick ((memGet c.plate (vecScaleAddr c w) sb).map (·.toNat)) (k / 32))
        FlagsRaised c (coreAt t v) fVEC 64 (laneOn c w) (fun k => (r k).2) ∧
        (∀ q k, q ≠ bits w 52 48 → k < 64 → lane (coreAt t v) q k = lane c q k) ∧
        ∀ k, k < 64 → lane (coreAt t v) (bits w 52 48) k =
          if laneOn c w k then (r k).1 else lane c (bits w 52 48) k)) ∧
    (IssuesSys s v 0 → a % 8 = 0 → Readable c ownVec a 8 →
      ∃ t, exec (.mld v) s = .next t ∧ OnlyCoreCe s t v ∧
        coreAt t v = { advancePc c with mask := (coreAt t v).mask } ∧
        (∀ m, m ≠ bits w 50 48 → maskOf (coreAt t v) m = maskOf c m) ∧
        (laneOn c w 0 = true → (maskOf (coreAt t v) (bits w 50 48)).toNat = memNat c.plate a 8)) ∧
    (IssuesSys s v 1 → a % 8 = 0 → Readable c ownVec a 16 →
      ∃ t, exec (.nld v) s = .next t ∧ OnlyCoreCe s t v ∧
        coreAt t v = { advancePc c with ctx := (coreAt t v).ctx } ∧
        (∀ m, m ≠ bits w 50 48 → ctxOf (coreAt t v) m = ctxOf c m) ∧
        (laneOn c w 0 = true → (ctxOf (coreAt t v) (bits w 50 48)).toNat = memNat c.plate a 16)) ∧
    (laneOn c w 0 = false → a % 8 = 0 →
      (IssuesSys s v 0 → checkPlate c.tags ownVec a 8 false = none →
        ∃ t, exec (.mld v) s = .next t ∧ OnlyCore s t v ∧ coreAt t v = advancePc c) ∧
      (IssuesSys s v 1 → checkPlate c.tags ownVec a 16 false = none →
        ∃ t, exec (.nld v) s = .next t ∧ OnlyCore s t v ∧ coreAt t v = advancePc c))

/-- VST, MST and RECST complete at an aligned address whose bytes can be written. VST writes 64 elements, those of
masked lanes staying, and an MX format two scale bytes beside them; MST and RECST write eight bytes, a mask register
or the record of the previous stroke. VST raises the flags of the elements that it writes, MST and RECST none. No
other byte of the plate changes (R66, R104, R105, R127). The model's own choices in it: logs 21 and 28; log 82, the
wrap of an address modulo 2^64. -/
def Obligations.VectorStoresComplete : Prop :=
  ∀ (s : State) (v : Nat), UnitReady s v →
    let c := coreAt s v
    let w := (fetched s v).toNat
    let a := vecAddr c w
    let b := vecScaleAddr c w
    let elem := fmtElem (bits w 23 19)
    let width := elemWidth elem
    let rs := drawWords c (bits w 17 16 == 2) 64 (bits w 15 13) (bits w 12 9)
    let e := fun k => narrow elem (bits w 17 16) (bit w 18) (pick rs k) (lane c (bits w 52 48) k)
    let partly := fun i => 0 < elemMask width (laneMask c w) / 2 ^ (64 * i) % 2 ^ 64 ∧
      elemMask width (laneMask c w) / 2 ^ (64 * i) % 2 ^ 64 < 2 ^ 64 - 1
    (Issues s v 0x11 → fmtMx (bits w 23 19) = false → a % 8 = 0 →
      checkPlate c.tags ownVec a (8 * width) true = none →
      (∀ i, i < width → partly i → badWords c.plate (a + 8 * i) 8 = []) →
      ∃ t, exec (.vst v) s = .next t ∧ OnlyCoreCe s t v ∧
        coreAt t v = { advancePc c with plate := (coreAt t v).plate, sticky := (coreAt t v).sticky } ∧
        FlagsRaised c (coreAt t v) fVEC 64 (laneOn c w) (fun k => (e k).2) ∧
        PlateKept c (coreAt t v) a (8 * width) ∧
        ∀ k, k < 64 → memNat (coreAt t v).plate a (8 * width) / 2 ^ (width * k) % 2 ^ width =
          if laneOn c w k then (e k).1 % 2 ^ width
          else memNat c.plate a (8 * width) / 2 ^ (width * k) % 2 ^ width) ∧
    (Issues s v 0x11 → fmtMx (bits w 23 19) = true → a % 8 = 0 →
      checkPlate c.tags ownVec a (8 * width) true = none → Writable c ownVec b 2 →
      let vs := (List.range 64).map (lane c (bits w 52 48))
      let x := mxBlock elem (bits w 17 16) (rs.take 32) ((vs.take 32).map fp)
      let y := mxBlock elem (bits w 17 16) (rs.drop 32) ((vs.drop 32).map fp)
      ∃ t, exec (.vst v) s = .next t ∧ OnlyCoreCe s t v ∧
        coreAt t v = { advancePc c with plate := (coreAt t v).plate, sticky := (coreAt t v).sticky } ∧
        FlagRaised c (coreAt t v) fVEC (x.2.2 ||| y.2.2 ||| nanIn vs) ∧
        (∀ z, (z < a ∨ a + 8 * width ≤ z) → (z < b ∨ b + 2 ≤ z) →
          memByte (coreAt t v).plate z = memByte c.plate z) ∧
        (b + 2 ≤ a ∨ a + 8 * width ≤ b →
          memGet (coreAt t v).plate a (8 * width) = packElems width (x.2.1 ++ y.2.1)) ∧
        memGet (coreAt t v).plate b 2 = [BitVec.ofNat 8 x.1, BitVec.ofNat 8 y.1]) ∧
    (IssuesSys s v 3 → a % 8 = 0 → checkPlate c.tags ownVec a 8 true = none →
      ∃ t, exec (.mst v) s = .next t ∧ OnlyCoreCe s t v ∧
        coreAt t v = { advancePc c with plate := (coreAt t v).plate } ∧
        PlateKept c (coreAt t v) a 8 ∧
        (laneOn c w 0 = false → (coreAt t v).plate = c.plate) ∧
        (laneOn c w 0 = true → memNat (coreAt t v).plate a 8 = (maskOf c (bits w 50 48)).toNat)) ∧
    (IssuesSys s v 2 → a % 8 = 0 → checkPlate c.tags ownVec a 8 true = none →
      ∃ t, exec (.recst v) s = .next t ∧ OnlyCoreCe s t v ∧
        coreAt t v = { advancePc c with plate := (coreAt t v).plate } ∧
        PlateKept c (coreAt t v) a 8 ∧
        (laneOn c w 0 = false → (coreAt t v).plate = c.plate) ∧
        (laneOn c w 0 = true → memNat (coreAt t v).plate a 8 = c.record.toNat))

/-! ### DMA, transfers and their completion -/

/-- A DMA instruction that may issue enters its descriptor, captured at issue, in its engine's queue with its flag
pending; the engine then runs its descriptors in issue order. One that waits behind a stalled descriptor
only enters (R95, R109, R121, R122, R162). The model's own choices in it: logs 21 and 24. -/
def Obligations.DmaInstructionsIssue : Prop :=
  ∀ (s : State) (v : Nat), DmaReady s v →
    let eng := dmaEngine s v
    let d := dmaQueued s v (dmaOp s v)
    let u := setCore s v d
    ∀ p, p ∈ [(0x18, Instr.dmaRow v), (0x19, .dmaCol v), (0x1A, .dmaPressImage v), (0x1B, .dmaMxPack v),
              (0x1C, .dmaGather v)] → Issues s v p.1 →
      exec p.2 s = .next (pumpDma 16 u v eng) ∧
      (∀ op l r, look [] (coreAt s v).dma eng = l ++ op :: r → (∀ o, o ∈ l → o.moved = true) →
        op.moved = false → op.stall.isSome = true → exec p.2 s = .next u)

/-- A DMA_ROW of one row, with nothing before it in its engine, copies its bytes where its two ranges can be read
and written, or writes zeros where its mask gates it; from plate to plate, from device memory to the plate and from
the plate to device memory. The destination then reads as the source did, and every other byte as before (R109,
R163, R166). The model's own choices in it: logs 11 and 24. -/
def Obligations.DmaRowCopiesItsRow : Prop :=
  ∀ (s : State) (v : Nat), Issues s v 0x18 → DmaReady s v → look [] (coreAt s v).dma (dmaEngine s v) = [] →
    let c := coreAt s v
    let op := dmaOp s v
    let n := bits (dmaWord op 3) 23 0
    let src := dSrc op
    let dst := dDst op
    descOk op = true → bits (dmaWord op 3) 47 32 = 0 → 0 < n → n % 8 = 0 →
    (dSsp op = true → dDsp op = true → src % 8 = 0 → dSstride op % 8 = 0 → dst % 8 = 0 → dDstride op % 8 = 0 →
      Readable c (dOwner op) src n → checkPlate c.tags (dOwner op) dst n true = none →
      ∃ t, exec (.dmaRow v) s = .next t ∧ Moved s t v ∧ PlateKept c (coreAt t v) dst n ∧
        ∀ k, k < n → memByte (coreAt t v).plate (dst + k) =
          if dGate op then memByte c.plate (src + k) else 0) ∧
    (dSsp op = false → dDsp op = true → dst % 8 = 0 → dDstride op % 8 = 0 →
      src + n ≤ shareLo → checkDev s.memory src n false = none → badWords s.memory.ddr src n = [] →
      correctedWords s.memory.ddr src n = [] → checkPlate c.tags (dOwner op) dst n true = none →
      ∃ t, exec (.dmaRow v) s = .next t ∧ Moved s t v ∧ PlateKept c (coreAt t v) dst n ∧
        ∀ k, k < n → memByte (coreAt t v).plate (dst + k) =
          if dGate op then memByte s.memory.ddr (src + k) else 0) ∧
    (dSsp op = true → dDsp op = false → src % 8 = 0 → dSstride op % 8 = 0 → Readable c (dOwner op) src n →
      dst + n ≤ shareLo → checkDev s.memory dst n true = none →
      (∀ w, w ∈ partWords dst n → badWords s.memory.ddr (8 * w) 8 = []) →
      ∃ t, exec (.dmaRow v) s = .next t ∧ t.memory = { s.memory with ddr := t.memory.ddr } ∧
        Moved s { t with memory := s.memory } v ∧ (coreAt t v).plate = c.plate ∧
        (∀ k, k < n → memByte t.memory.ddr (dst + k) = if dGate op then memByte c.plate (src + k) else 0) ∧
        ∀ x, x < dst ∨ dst + n ≤ x → memByte t.memory.ddr x = memByte s.memory.ddr x)

/-- DMA_COL with nothing before it in its engine and its rows apart transposes its elements, of either side into
either side: element (i, j) of the source is element (j, i) of the destination, and every byte outside the
destination's rows stays (R167). DMA_PRESS_IMAGE writes the image of its columns and their scales, of either side,
to the plate (R168). Where the mask gates them, both write zeros (R109). The model's own choices in it: logs 11 and
24; log 101, rows of a length that is no multiple of 8. -/
def Obligations.DmaTransposesAndBuildsImages : Prop :=
  ∀ (s : State) (v : Nat), DescReady s v →
    let op := dmaOp s v
    let sp := dSsp op
    let dp := dDsp op
    let src := dSrc op
    let dst := dDst op
    let ss := dSstride op
    let ds := dDstride op
    sideAligned sp src ss = true →
    (∀ wd, Issues s v 0x19 → colWidth (dFmt op) = some wd → sideAligned dp dst ds = true →
      let nr := bits (dmaWord op 3) 15 0 + 1
      let nc := bits (dmaWord op 3) 31 16 + 1
      nr * wd ≤ ds →
      (∀ i, i < nr → SideReads s v sp (src + i * ss) (nc * wd)) →
      (∀ j, j < nc → SideWrites s v dp (dst + j * ds) (nr * wd)) →
      ∃ t, exec (.dmaCol v) s = .next t ∧ MovedTo s t v dp ∧
        (∀ i j b, i < nr → j < nc → b < wd → memByte (sideMem t v dp) (dst + j * ds + i * wd + b) =
          if dGate op then memByte (sideMem s v sp) (src + i * ss + j * wd + b) else 0) ∧
        ∀ x, (∀ j, j < nc → x < dst + j * ds ∨ dst + j * ds + nr * wd ≤ x) →
          memByte (sideMem t v dp) x = memByte (sideMem s v dp) x) ∧
    (∀ k, Issues s v 0x1A → fmtOk (dFmt op) = true → classOf (dFmt op) = some k → dp = true → dst % 64 = 0 →
      let n := bits (dmaWord op 3) 10 0 + 1
      let kseg := bits (dmaWord op 3) 13 11 + 1
      let kmajor := bit (dmaWord op 3) 14
      let wb := elemWidth (fmtElem (dFmt op)) / 8
      let lines := if kmajor then kseg * classSeg k else n
      let len := if kmajor then n * wb else kseg * segBytes k (dFmt op)
      let sc := srcAddr op (bits (dmaWord op 5) 47 0)
      let pitch := bits (dmaWord op 6) 47 0
      let sn := kseg * classGroups k
      let size := (n + kseg - 1) * (kseg * slotBytes k (dFmt op))
      (kmajor = true → dFmt op ∈ [1, 2, 3, 4, 8]) →
      (∀ i, i < lines → SideReads s v sp (src + i * ss) len) →
      (fmtMx (dFmt op) = true → ∀ i, i < n → SideReads s v sp (sc + i * pitch) sn) →
      SideWrites s v true dst size →
      let rows := (List.range lines).map fun i => memGet (sideMem s v sp) (src + i * ss) len
      let cols := if kmajor then (List.range n).map (columnBytes rows wb) else rows
      let scales := (List.range n).map fun i => memGet (sideMem s v sp) (sc + i * pitch) sn
      ∃ t, exec (.dmaPressImage v) s = .next t ∧ Moved s t v ∧ SideKept s t v true dst size ∧
        ∀ x, x < size → memByte (sideMem t v true) (dst + x) =
          if dGate op then (imageBytes k (dFmt op) kseg n cols scales).getD x 0 else 0)

/-- DMA_MX_PACK of one row, with nothing before it in its engine, packs its FP32 blocks into elements and scales, or
widens them again with UNPACK, of either side into either side, and raises the flags of what it converts (R66, R169).
A DMA_GATHER of one entry copies the entry that its index names, or writes zeros where the index is null or the mask
gates the entry; from the plate to device memory it scatters: the entry goes where its index names, and a null index
writes nothing (R109, R170). The model's own choices in it: logs 11, 24 and 28. -/
def Obligations.DmaPacksAndGathers : Prop :=
  ∀ (s : State) (v : Nat), DescReady s v →
    let c := coreAt s v
    let op := dmaOp s v
    let sp := dSsp op
    let dp := dDsp op
    let src := dSrc op
    let dst := dDst op
    let elem := fmtElem (dFmt op)
    let nb := bits (dmaWord op 3) 31 16 + 1
    let eb := nb * 32 * elemWidth elem / 8
    let f := bits (dmaWord op 6) 47 0
    (Issues s v 0x1B → fmtMx (dFmt op) = true → fmtOk (dFmt op) = true → dCvt op % 4 ≠ 3 →
      bits (dmaWord op 3) 15 0 = 0 → sideAligned sp src (dSstride op) = true →
      sideAligned dp dst (dDstride op) = true →
      (bit (dmaWord op 3) 32 = false →
        let sc := dstAddr op f
        let r := packBlocks elem (dCvt op % 4) op.ctx op.bcv 0
          (chunks 32 nb (bytesWord32 (32 * nb) (memGet (sideMem s v sp) src (128 * nb))))
        SideReads s v sp src (128 * nb) → SideWrites s v dp dst eb → SideWrites s v dp sc nb →
        (sc + nb ≤ dst ∨ dst + eb ≤ sc) →
        ∃ t, exec (.dmaMxPack v) s = .next t ∧ MovedTo s t v dp ∧
          FlagRaised c (coreAt t v) fDMA (if dGate op then r.2.2 else 0) ∧
          memGet (sideMem t v dp) dst eb =
            (if dGate op then packElems (elemWidth elem) r.1 else zeros eb) ∧
          memGet (sideMem t v dp) sc nb = (if dGate op then r.2.1.map (BitVec.ofNat 8) else zeros nb) ∧
          ∀ x, (x < dst ∨ dst + eb ≤ x) → (x < sc ∨ sc + nb ≤ x) →
            memByte (sideMem t v dp) x = memByte (sideMem s v dp) x) ∧
      (bit (dmaWord op 3) 32 = true →
        let sc := srcAddr op f
        let r := widenAll (16 + elem) (unpackElems (elemWidth elem) (32 * nb) (memGet (sideMem s v sp) src eb))
          ((memGet (sideMem s v sp) sc nb).map (·.toNat))
        SideReads s v sp src eb → SideReads s v sp sc nb → SideWrites s v dp dst (128 * nb) →
        ∃ t, exec (.dmaMxPack v) s = .next t ∧ MovedTo s t v dp ∧ SideKept s t v dp dst (128 * nb) ∧
          FlagRaised c (coreAt t v) fDMA (if dGate op then r.foldl (fun g p => g ||| p.2) 0 else 0) ∧
          memGet (sideMem t v dp) dst (128 * nb) =
            if dGate op then word32Bytes (r.map (·.1)) else zeros (128 * nb))) ∧
    (Issues s v 0x1C → bits (dmaWord op 3) 15 0 = 0 →
      let n := bits (dmaWord op 3) 39 16
      let table := bits (dmaWord op 4) 24 0
      let step := bits (dmaWord op 5) 47 0
      let x := memNat c.plate table 4
      let live := op.pred.getLsbD 0
      let moved := ∃ t, exec (.dmaGather v) s = .next t ∧ Moved s t v ∧ (coreAt t v).plate = c.plate
      0 < n → n % 8 = 0 → table % 4 = 0 → SideReads s v true table 4 →
      (sp = false ∨ dp = true → sideAligned sp src step = true → sideAligned dp dst f = true →
        let a := (src + x * step) % 2 ^ 64
        SideWrites s v dp dst n →
        (x ≠ 0xFFFFFFFF → SideCheck s v sp a n false ∧ (live = true → SideSound s v sp a n)) →
        ∃ t, exec (.dmaGather v) s = .next t ∧ MovedTo s t v dp ∧ SideKept s t v dp dst n ∧
          ∀ k, k < n → memByte (sideMem t v dp) (dst + k) =
            if x ≠ 0xFFFFFFFF ∧ live = true then memByte (sideMem s v sp) (a + k) else 0) ∧
      (sp = true → dp = false → sideAligned true src f = true →
        let a := (dst + x * step) % 2 ^ 64
        (x = 0xFFFFFFFF → moved) ∧
        (x ≠ 0xFFFFFFFF → SideCheck s v true src n false → (live = true → SideSound s v true src n) →
          SideWrites s v false a n →
          ∃ t, exec (.dmaGather v) s = .next t ∧ MovedTo s t v false ∧ SideKept s t v false a n ∧
            ∀ k, k < n → memByte (sideMem t v false) (a + k) =
              if live = true then memByte (sideMem s v true) (src + k) else 0)))

/-- A SEND to a core of this grid puts its bytes on the mesh, an MCAST to a group puts them on their way to
every core of the group, at once where nothing is before them in the queue and they await no flag or one that
is set; one whose flag is not set waits in the queue; a RECV waits for its slot with its flag pending (R111,
R112, R121, R123, R226). The model's own choices in it: logs 21 and 23. -/
def Obligations.TransfersIssue : Prop :=
  ∀ (s : State) (v : Nat),
    let c := coreAt s v
    let w := (fetched s v).toNat
    let a := (baseOf c (xBase w)).toNat
    let n := 64 * xLen w
    let data := if (maskOf c (predOf w)).getLsbD 0 then memGet c.plate a n else List.replicate n 0
    let go := xFv w = false ∨ c.flagSet.getLsbD (xFlag w) = true
    let readable := Readable c ownMesh a n
    c.xf = [] → a % 64 = 0 →
    (∀ d, Issues s v 0x20 → go → bit w 32 = false → coreOfXY s (bits w 31 26) (bits w 25 20) = some d →
      readable →
      ∃ t, exec (.send v) s = .next t ∧ coreAt t v = advancePc c ∧
        OnlyCoreCe s { t with transit := s.transit } v ∧
        t.transit = s.transit ++
          [{ dst := d, slot := xSlot w, src := .core v, len := xLen w, data := data }]) ∧
    (∀ g, Issues s v 0x22 → go → s.prog.groups[bits w 31 20]? = some g → g.getLsbD v = false → readable →
      ∃ t, exec (.mcast v) s = .next t ∧ coreAt t v = advancePc c ∧
        OnlyCoreCe s { t with transit := s.transit } v ∧
        t.transit = s.transit ++ ((List.range s.prog.cores).filter fun u => g.getLsbD u).map (fun u =>
          { dst := u, slot := xSlot w, src := .group (bits w 31 20), len := xLen w, data := data })) ∧
    ((Issues s v 0x20 ∨ Issues s v 0x22) → ¬ go → (targetOf s v w).isSome = true →
      ∃ t, exec (if isMcast w then .mcast v else .send v) s = .next t ∧ OnlyCore s t v ∧
        coreAt t v = { advancePc c with
          xf := [{ pc := c.pc, word := fetched s v, addr := baseOf c (xBase w)
                   gate := (maskOf c (predOf w)).getLsbD 0 }] }) ∧
    (Issues s v 0x21 →
      (xFv w = true → c.flagSet.getLsbD (xFlag w) = false ∧ c.flagPend.getLsbD (xFlag w) = false) →
      checkPlate c.tags ownMesh a n true = none →
      let r : RecvOp := { pc := c.pc, word := fetched s v, slot := xSlot w, addr := a, len := xLen w
                          flag := xFlag w, fv := xFv w }
      mismatchIn (recvsOn { c with recvs := c.recvs ++ [r] } (xSlot w)) (heldOn c (xSlot w)) = none →
      ∃ t, exec (.recv v) s = .next t ∧ OnlyCore s t v ∧
        coreAt t v = { advancePc c with
          recvs := c.recvs ++ [r]
          flagPend := if xFv w then c.flagPend ||| flagBit (xFlag w) else c.flagPend })

/-- A SEND to another device, or to a collectives engine of another device, leaves the mesh as it is and, on VC1,
counts its bytes toward that device's window. Its packets go, in ascending order, on the link that is their first,
where it carries their VC: on VC1 that of the slot's flow, else each by the route that R385 selects for it; while the
unscheduled window is full they are held. A SEND to a collectives engine of this device adds this rank's contribution
to its collective where this device's engine combines it (R211, R384, R385, R389, R392). The model's own choices in it:
logs 23 and 31; log 97, the first link of a packet to the partner. -/
def Obligations.RemoteSendsIssue : Prop :=
  ∀ (s : State) (v : Nat), Issues s v 0x20 →
    let c := coreAt s v
    let w := (fetched s v).toNat
    let a := (baseOf c (xBase w)).toNat
    let n := 64 * xLen w
    let data := if (maskOf c (predOf w)).getLsbD 0 then memGet c.plate a n else List.replicate n 0
    c.xf = [] → a % 64 = 0 → (xFv w = false ∨ c.flagSet.getLsbD (xFlag w) = true) → Readable c ownMesh a n →
    (∀ r, (targetOf s v w = some (.remote r) ∨ (targetOf s v w = some (.engine r) ∧ r.device ≠ s.fab.id ∧
        ∀ e, collOf s (xSlot w) = some e → contribBytes e = n)) →
      (r.vc = 1 → look 0 s.prog.window r.device + n ≤ schedWindow) →
      let k := windowKey r.device r.vc
      let ps := messagePackets
        { vc := r.vc, pkey := s.fab.pkey, ptype := if r.vx = 0x3F then 7 else 1, dst := r.device, src := s.fab.id
          via := if r.vc = 1 then r.via else 0, slot := xSlot w, vx := r.vx, vy := r.vy } data
      let routed := ps.zipIdx.map fun p => stageAt s.fab.id
        (selectRoute (commonOf s) ((look 0 s.fab.ctr k + p.2) % 2 ^ 32) p.1)
      let onto := fun m =>
        if carries (linkAt s m) r.vc = false then []
        else if r.vc = 1 then
          if flowLink s (xSlot w) = some m then ps.flatMap fun p => packetFlits p true (0x4000 + xSlot w) else []
        else routed.flatMap fun p => if firstHop s p = .link m then packetFlits p true 0 else []
      let held := s.fab.waiting.any fun q => windowKey q.dst q.vc == k
      ∃ t, exec (.send v) s = .next t ∧ coreAt t v = advancePc c ∧
        (∀ u, u ≠ v → coreAt t u = coreAt s u) ∧ t.transit = s.transit ∧ t.memory = s.memory ∧
        t.fab.coll = s.fab.coll ∧
        look 0 t.prog.window r.device = look 0 s.prog.window r.device + (if r.vc = 1 then n else 0) ∧
        (r.vc = 1 ∨ r.vx = 0x3F ∨ (held = false ∧ look 0 s.fab.used k + n ≤ unschedWindow s) →
          ∀ m, linkAt t m = { linkAt s m with queue := (linkAt t m).queue } ∧
            ∀ q, look [] (linkAt t m).queue q =
              look [] (linkAt s m).queue q ++ if q = r.vc then onto m else []) ∧
        (r.vc ≠ 1 → r.vx ≠ 0x3F → held = true →
          t.links = s.links ∧ t.fab.waiting = s.fab.waiting ++ ps)) ∧
    (∀ r e, targetOf s v w = some (.engine r) → r.device = s.fab.id → collOf s (xSlot w) = some e →
      contribBytes e = n →
      ∃ t, exec (.send v) s = .next t ∧ coreAt t v = advancePc c ∧
        (∀ u, u ≠ v → coreAt t u = coreAt s u) ∧ t.memory = s.memory ∧ t.prog = s.prog ∧
        (collReceives s e = true →
          look [] t.fab.coll e.id = [] ∨ (collRank s e, data) ∈ look [] t.fab.coll e.id))

/-- Data that arrives on a slot, first in the stroke or from the slot's source, waits in the core's port and
binds the slot; a delivery whose RECV has run is written to the plate and sets its flag; a descriptor that has
moved leaves its engine and sets its flag (R111, R121, R213). The model's own choices in it: log 23. -/
def Obligations.DeliveriesAndCompletions : Prop :=
  ∀ (s : State) (v : Nat),
    let c := coreAt s v
    mapped s v = true →
    (∀ slot src d r, takeFirst (fun (d : Delivery) => d.dst == v && d.slot == slot && d.src == src) s.transit
        = some (d, r) → (heathAt s (heathOf s v)).frozen = false →
      (look none c.binds slot = none ∨ look none c.binds slot = some src) →
      (∀ q, (recvsOn c slot)[(heldOn c slot).length]? = some q → q.len = d.len) →
      ∃ t, exec (.meshDelivery v slot src) s = .next t ∧ t.transit = r ∧
        coreAt t v = { c with port := c.port ++ [d], binds := (coreAt t v).binds } ∧
        look none (coreAt t v).binds slot = some src ∧
        (∀ q, q ≠ slot → look none (coreAt t v).binds q = look none c.binds q) ∧
        { t with cores := s.cores, transit := s.transit } = s) ∧
    (∀ slot r d, readyRecv c slot = some (r, d) → c.xf = [] → (heathAt s (heathOf s v)).frozen = false →
      r.addr % 8 = 0 → d.data.length % 8 = 0 → d.data ≠ [] →
      ∃ t, exec (.recvComplete v slot) s = .next t ∧ (∀ u, u ≠ v → coreAt t u = coreAt s u) ∧
        ((∀ x, d.src ≠ .device x) → OnlyCore s t v) ∧
        coreAt t v = { c with
          recvs := c.recvs.erase r, port := c.port.erase d, plate := (coreAt t v).plate
          flagSet := if r.fv then c.flagSet ||| flagBit r.flag else c.flagSet
          flagPend := if r.fv then c.flagPend &&& ~~~flagBit r.flag else c.flagPend } ∧
        PlateKept c (coreAt t v) r.addr d.data.length ∧
        ∀ k, k < d.data.length → memByte (coreAt t v).plate (r.addr + k) = d.data.getD k 0) ∧
    (∀ eng op q, look [] c.dma eng = op :: q → op.moved = true → c.xf = [] →
      ∃ t, exec (.dmaDescriptorComplete v eng) s = .next t ∧ OnlyCore s t v ∧
        coreAt t v = { c with
          dma := put [] c.dma eng q
          flagSet := if op.fv then c.flagSet ||| flagBit op.flag else c.flagSet
          flagPend := if op.fv then c.flagPend &&& ~~~flagBit op.flag else c.flagPend })

/-! ### Strokes, ticks and launches -/

/-- STROKE_LAUNCH with round[k] fixed begins stroke k + 1 at L(k) + B(k) + Q·round[k], with its own entry's
budget and profile: every core that ended goes on with cleared flags and its staged tags (R187, R188, R119,
R124, R224). With a record held it begins the first stroke at L1, with the record's quantum, bound, lead and
path (R188, R208). The model's own choices in it: logs 9 and 29. -/
def Obligations.LaunchesBeginStrokes : Prop :=
  ∀ (s : State),
    s.fab.waiting = [] →
    let begun := fun (t : State) (k l e rep : Nat) =>
      t.tick.stroke = k ∧ t.tick.launch = l ∧ t.prog.entry = e ∧ t.prog.rep = rep ∧
      t.tick.budget = (strokeEnt t).budget ∧ t.tick.launched = true ∧
      (allAtEnd t = false → t.tick.ended = false) ∧
      t.tick.fixed = none ∧ t.tick.sent = 0 ∧ t.tick.check = 0 ∧ t.prog.window = [] ∧ t.memory = s.memory ∧
      t.transit = s.transit ∧
      (∀ h, h < 48 → (heathAt t h).profile = (strokeEnt t).profile ∧
        (heathAt t h).declared = heathTokens s.prog.grid s.prog.cores
          (nth [] s.prog.profiles (strokeEnt t).profile) h)
    (∀ r e rep begins, s.prog.phase = .running → s.tick.fixed = some r → s.tick.ended = true →
      nextStroke s = some (e, rep, begins) → (begins = true → allHalted s = true) →
      (s.tick.alone = true ∨ syncOk s (launchAfter s r) s.tick.runLimit = true) →
      ∃ t, exec .strokeLaunch s = .next t ∧
        begun t ((s.tick.stroke + 1) % 2 ^ 32) (s.tick.launch + s.tick.budget + 256 * s.tick.runQuant * r) e rep ∧
        (allAtEnd t = false → t.host = s.host) ∧
        ∀ v, let next := { takeStaged (coreAt s v) with
               phase := .run, inSetup := false, halting := false, flagSet := 0, flagPend := 0, sticky := 0
               binds := [], port := [], strokeIx := (s.tick.stroke + 1) % 2 ^ 32 }
          ((coreAt s v).phase = .ended → begins = false → coreAt t v = next) ∧
          ((coreAt s v).phase = .halted → begins = true → ∀ x,
            s.prog.table.shapes[s.srv.books.variant]? = some x → coreAt t v = { next with pc := x.entry }) ∧
          ((coreAt s v).phase = .halted → begins = false → coreAt t v = { takeStaged (coreAt s v) with
            flagSet := 0, flagPend := 0, sticky := 0, port := [], binds := [] })) ∧
    (∀ r, s.prog.phase = .due → s.prog.record = some r →
      (s.tick.alone = true ∨ syncOk s r.l1 r.syncLimit = true) →
      ∃ t, exec .strokeLaunch s = .next t ∧
        begun t (if s.prog.step then 1 else s.prog.committed + 1) r.l1
          (if s.prog.step then variantFirst s else s.prog.entry) s.prog.rep ∧
        t.prog.phase = .running ∧ t.tick.runQuant = r.quant ∧ t.tick.runLimit = r.syncLimit ∧
        t.tick.lead = r.lead ∧ t.tick.path = r.path ∧
        (s.fab.part = .assigned → t.fab.part = .running))

/-- HOLD_POINT takes the next round where the device has not reached stroke end, and sends its hold to the other
devices of its partition, if any; where it has, it does nothing; at round 256 it stops the partition. DECISION_TICK r goes on to the next where the round is
beyond r, and else fixes round[k] = r and counts a stroke that it stretched (R197, R199, R200, R201). The
model's own choices in it: log 9. -/
def Obligations.HoldsAndDecisions : Prop :=
  ∀ (s : State), s.tick.launched = true → s.tick.fixed = none →
    let r := s.tick.round + 1
    let u := advance s (holdPointAt s r)
    let q := s.tick.check
    let w := advance s (decisionAt s q)
    (s.tick.ended = true → exec .holdPoint s = .next u) ∧
    (s.tick.ended = false → r ≠ 256 → ∃ t, exec .holdPoint s = .next t ∧
      { t with tick := s.tick, fab := s.fab, links := s.links } = s ∧
      (s.tick.alone = true → t.tick = { u.tick with round := r } ∧ t.fab = s.fab ∧ t.links = s.links) ∧
      (s.tick.alone = false → t.tick = { u.tick with round := r, sent := r } ∧
        t.fab = { s.fab with congHolds := min (s.fab.congHolds + 1) 65535 } ∧ ∀ n, n < 36 → linkAt t n =
        if linkUp s n then queuePrio (linkAt s n) .hold
          { pkey := s.fab.pkey, epoch := s.prog.epoch, stroke := s.tick.stroke, round := r, origin := s.fab.id }
        else linkAt s n)) ∧
    (s.tick.ended = false → r = 256 → progLive s = true → ∃ t, exec .holdPoint s = .next t ∧
      t.prog.phase = .done ∧ t.tick.launched = false ∧
      (s.tick.stop.valid = false → t.tick.stop.code = 0x0B ∧ t.tick.stop.stroke = s.tick.stroke)) ∧
    (s.tick.commits.all (fun p => p.2 != 0) = false →
      (q + 1 ≤ s.tick.round → exec .decisionTick s =
        .next { w with tick := { w.tick with check := q + 1 } }) ∧
      (s.tick.round < q + 1 → ∃ t, exec .decisionTick s = .next t ∧ { t with tick := s.tick } = s ∧
        t.tick = { w.tick with
          fixed := some q, rounds := (s.tick.stroke, q) :: s.tick.rounds
          holdStrokes := if q = 0 then s.tick.holdStrokes else min (s.tick.holdStrokes + 1) (2 ^ 32 - 1)
          stretch := if q = 0 then s.tick.stretch else (s.tick.stretch + 256 * s.tick.runQuant * q) % 2 ^ 64
          stopDue := t.tick.stopDue }))

/-- A HOLD of the running stroke raises the round and goes on to the other links, and one later than the round fixed
for its stroke stops the partition with HOLD_LATE; a STOP ends the program and
records the first stop, its own where it comes to one in the same tick; a CANCEL gives up the record that is held. A flit already forwarded changes nothing,
one of another epoch is counted and dropped, and so is one with a foreign key (R191, R193, R198, R203 to R205,
R395). The model's own choices in it: log 35; log 95, the code recorded for a STOP whose code is reserved, and the
stroke 0 that a stop of the device's own names before the first launch. -/
def Obligations.PriorityFlitsTaken : Prop :=
  ∀ (s : State) (n : Nat) (p : Prio),
    (linkUp s n = true → (p.pkey ≠ s.fab.pkey ∨ p.pkey = 0) →
      exec (.hold n p) s = .next (countForeign s) ∧ exec (.stop n p) s = .next (countForeign s) ∧
      exec (.launchCancel n p) s = .next (countForeign s)) ∧
    (prioOk s n p = true → epochOk s p = false →
      let t := { s with tick := { s.tick with stale := min (s.tick.stale + 1) 65535 } }
      exec (.hold n p) s = .next t ∧ exec (.stop n p) s = .next t ∧ exec (.launchCancel n p) s = .next t) ∧
    (prioOk s n p = true → epochOk s p = true →
      (progLive s = true → prioSeen s p.stroke p.round = true → exec (.hold n p) s = .next s) ∧
      (progLive s = true → prioSeen s p.stroke p.round = false → s.tick.launched = true →
        p.stroke = s.tick.stroke →
        (∀ x, s.tick.rounds.find? (fun x => x.1 == p.stroke) = some x → p.round ≤ x.2) →
        ∃ t, exec (.hold n p) s = .next t ∧ { t with tick := s.tick, fab := s.fab, links := s.links } = s ∧
          t.tick = { s.tick with round := max s.tick.round p.round } ∧
          t.fab = { s.fab with stopSeen := (p.stroke, p.round) :: s.fab.stopSeen } ∧
          ∀ m, m < 36 → linkAt t m =
            if m ≠ n ∧ linkUp s m then queuePrio (linkAt s m) .hold p else linkAt s m) ∧
      (∀ x, progLive s = true → prioSeen s p.stroke p.round = false → s.tick.launched = true →
        s.tick.rounds.find? (fun x => x.1 == p.stroke) = some x → x.2 < p.round →
        ∃ t, exec (.hold n p) s = .next t ∧ t.prog.phase = .done ∧ t.tick.launched = false ∧
          (s.tick.stop.valid = false →
            t.tick.stop = { valid := true, code := 0x0A, cause := 0x2, isLocal := true, stroke := s.tick.stroke
                            origin := s.fab.id, gtc := s.tick.gtc })) ∧
      (progLive s = true → prioSeen s p.stroke (seenStop p.origin) = false →
        ∃ t, exec (.stop n p) s = .next t ∧ t.prog.phase = .done ∧ t.tick.launched = false ∧
          (s.tick.stop.valid = true → t.tick.stop = s.tick.stop) ∧
          (s.tick.stop.valid = false → ownStopDue s = none →
            t.tick.stop = { valid := true, code := if p.code ≤ 0x0E then p.code else stopCode p, cause := p.cause
                            isLocal := false, stroke := p.stroke, origin := p.origin, gtc := s.tick.gtc }) ∧
          ∀ own, s.tick.stop.valid = false → ownStopDue s = some own →
            t.tick.stop = { valid := true, code := own.1, cause := own.2, isLocal := true
                            stroke := if s.tick.launched then s.tick.stroke else 0, origin := s.fab.id
                            gtc := s.tick.gtc }) ∧
      (prioSeen s 0 (seenCancel p.epoch) = false → s.prog.phase = .due →
        ∃ t, exec (.launchCancel n p) s = .next t ∧
          { t with prog := s.prog, fab := s.fab, links := s.links } = s ∧
          t.prog = { s.prog with phase := .loaded, record := none }))

/-- On its upstream link a device in ACQUIRING steps once to a beacon's time, and its links' frames with it where
they were ahead of it; four good beacons in a row lock it, and a locked one slews and never steps; in HOLDOVER a
beacon within the bound, early or late, counts toward the four that lock again, and one beyond it stops the partition
of a loaded program. A master and every other link take no beacon. BEACON_SEND floods the GTC each 2^14 ticks; the fourth beacon
missed turns LOCKED into HOLDOVER (R180 to R183, R363). The model's own choices in it: logs 9 and 41. -/
def Obligations.BeaconsKeepTime : Prop :=
  ∀ (s : State) (n : Nat) (p : Prio), s.tick.running = true →
    let e := beaconError s n p
    (prioOk s n p = true → (s.tick.master = true ∨ s.tick.uplink ≠ n) → exec (.beacon n p) s = .next s) ∧
    (prioOk s n p = true → s.tick.master = false → s.tick.uplink = n →
      (s.tick.sync = .acquiring → s.tick.stepped = false → progLive s = false →
        ∃ t, exec (.beacon n p) s = .next t ∧ { t with tick := s.tick, links := s.links } = s ∧
          t.tick.gtc = (16 * p.gtc + p.frac % 16 + (linkAt s n).delay) / 16 ∧ t.tick.stepped = true ∧
          t.tick.sync = .acquiring ∧
          ∀ m, m < 36 → linkAt t m = if slotTick (linkAt s m) ≤ t.tick.gtc then linkAt s m else
            { linkAt s m with frame := t.tick.gtc / 64, slotNo := (125 * (t.tick.gtc % 64) + 63) / 64
                              displaced := 0 }) ∧
      ((s.tick.sync = .acquiring ∧ (s.tick.stepped = true ∨ progLive s = true)) ∨ s.tick.sync = .locked →
        ∃ t, exec (.beacon n p) s = .next t ∧ { t with tick := s.tick } = s ∧ t.tick.gtc = s.tick.gtc ∧
          t.tick.good = (if -16 ≤ e ∧ e ≤ 16 then s.tick.good + 1 else 0) ∧ t.tick.missed = 0 ∧
          t.tick.slew = e / 16 ∧ t.tick.lastBeacon = s.tick.gtc ∧
          (4 ≤ t.tick.good → t.tick.sync = .locked) ∧ (t.tick.good < 4 → t.tick.sync = s.tick.sync)) ∧
      (s.tick.sync = .holdover →
        let b : Int := 16 * ((lockedBound s + (s.tick.gtc - s.tick.lastBeacon) / 2 ^ 24 : Nat) : Int)
        (-b ≤ e → e ≤ b → ∃ t, exec (.beacon n p) s = .next t ∧ { t with tick := s.tick } = s ∧
          t.tick.gtc = s.tick.gtc ∧ t.tick.good = s.tick.good + 1 ∧ t.tick.missed = 0 ∧ t.tick.slew = e / 16 ∧
          t.tick.lastBeacon = s.tick.gtc ∧ t.tick.sync = if 4 ≤ t.tick.good then .locked else .holdover) ∧
        (e < -b ∨ b < e →
          (progLive s = true → ∃ t, exec (.beacon n p) s = .next t ∧ t.prog.phase = .done ∧
            t.tick.launched = false ∧ (s.tick.stop.valid = false → t.tick.stop.cause = 0x4)) ∧
          (progLive s = false → stoppedNow s = false → exec (.beacon n p) s =
            .next { s with tick := { s.tick with good := 0, missed := 0 } })))) ∧
    ((s.tick.sync = .locked ∨ masterRef s = true) → ∃ t, exec .beaconSend s = .next t ∧
      t.tick.gtc = max s.tick.gtc (s.tick.sentAt + 2 ^ 14) ∧ t.tick.sentAt = t.tick.gtc ∧
      { t with tick := s.tick, links := s.links } = s ∧
      ∀ m, m < 36 → (linkAt t m).prio.beacon =
        if linkUp s m then some { pkey := s.fab.pkey, origin := s.fab.id, gtc := t.tick.gtc }
        else (linkAt s m).prio.beacon) ∧
    (s.tick.master = false → s.tick.uplink ≠ 0x7F → s.tick.sync ≠ .unsync →
      ∃ t, exec .beaconMissed s = .next t ∧ t.tick.missed = min (s.tick.missed + 1) 255 ∧ t.tick.good = 0 ∧
        { t with tick := s.tick, host := s.host, hif := s.hif } = s ∧
        t.tick.sync = if 3 ≤ s.tick.missed ∧ s.tick.sync = .locked then .holdover else s.tick.sync)

/-- A coordinator agrees a launch: a device alone fixes L1 = T0 + 40,000, a member takes a record that passes
its checks and answers OK, an answer is held, and the deadline without every OK cancels. A record that fails
is answered with its status and not taken; no record within LAUNCH_WAIT ends the program (R191, R192, R396,
R427). The model's own choices in it: logs 40 and 76; log 91, that an answer with a reserved status is held as
MALFORMED, of which R9 says only that the device never writes it. -/
def Obligations.LaunchAgreed : Prop :=
  ∀ (s : State),
    (s.prog.phase = .loaded → s.fab.part = .unassigned → s.prog.devices = 1 →
      let u := advance s (max s.prog.loadedAt s.prog.args.notBefore)
      let r := makeRecord u true
      inputRefusal u = none → leadOk u r.lead = true → InputClean s →
      ∃ t, exec .coordinatorLaunchStart s = .next t ∧ t.prog.phase = .due ∧ t.prog.record = some r ∧
        t.prog.l1 = u.tick.gtc + 40000 ∧ t.tick = { u.tick with alone := true } ∧
        { t with prog := s.prog, tick := s.tick, fab := s.fab, free := s.free } = s) ∧
    (awaitsL1 s = true → allAcked s = true →
      exec .launchAckDeadline s = .next (advance s (s.prog.l1 - 8192))) ∧
    (awaitsL1 s = true → allAcked s = false → ∃ t, exec .launchAckDeadline s = .next t ∧
      t.prog.phase = .done ∧ t.prog.record = none ∧ t.cores = s.cores ∧
      t.memory = s.memory) ∧
    (s.prog.phase = .loaded → standsAlone s = false → isCoord s = false →
      ∃ t, exec .launchWaitTimeout s = .next t ∧ t.prog.phase = .done ∧ t.prog.record = none ∧
        t.cores = s.cores ∧ t.memory = s.memory) ∧
    (∀ (a : Auth) (r : LaunchRec), Accepts s .member a →
      (launchCheck (noteSeq s a) r = none → InputClean s →
        ∃ u, exec (.launch a r) s = .next (sendMgmt u (told a mtLaunchAnswer 0)) ∧
          u.prog.phase = .due ∧ u.prog.record = some r ∧ u.prog.l1 = r.l1 ∧ u.prog.epoch = r.epoch ∧
          u.tick = { s.tick with alone := false } ∧ u.cores = s.cores ∧ u.memory = s.memory ∧
          u.links = s.links ∧ u.fab = { s.fab with stopSeen := [] }) ∧
      (∀ e, planCheck (noteSeq s a) r = some e →
        exec (.launch a r) s = .next (sendMgmt (noteSeq s a) (told a mtLaunchAnswer e))) ∧
      (planCheck (noteSeq s a) r = none → inputRefusal (noteSeq s a) = some 0x0A →
        exec (.launch a r) s =
          .next (readInput (sendMgmt (noteSeq s a) (told a mtLaunchAnswer 0x0A))))) ∧
    (∀ (a : Auth) (st : Nat), Accepts s .member a → awaitsL1 s = true →
      a.sender ∈ others s → ackOf s a.sender = none → ∃ t, exec (.launchAnswer a st) s = .next t ∧
        { t with stl := s.stl, prog := s.prog } = s ∧
        t.prog = { s.prog with acks := s.prog.acks ++
          [(a.sender, if st ≤ 0x12 then st else stMalformed)] })

/-- STROKE_COMMIT commits the oldest launched stroke at L(k+1) + H: a batch program's stroke and its
checkpoint, its last stroke with the program's end, and a step of the serving engine with its boundary's
decisions (R190, R224, R246, R270; 12 R406). A paired device sends STEP and HEAD of the step's chain record to its
partner and compares the head with the partner's for that step, once it has come: a match goes on, a difference is
DIVERGED (R334, R335); the clauses that say so are those of a step without an end and with nothing waiting to be written.
The model's own choices in it: logs 9, 29 and 53. -/
def Obligations.StrokesCommit : Prop :=
  ∀ (s : State) (k l : Nat) (rest : List (Nat × Nat)),
    s.tick.commits = (k, l) :: rest → l ≠ 0 → s.tick.launched = true →
    let u := advance s (l + s.tick.lead)
    (s.proofs.pairState ≠ 1 →
      (s.prog.step = false → k ≠ strokeCount s.prog.strokes →
        let ck := (entryOf s.prog.strokes (k - 1)).checkpoint
        ∃ t, exec .strokeCommit s = .next t ∧
          { t with tick := s.tick, prog := s.prog, host := s.host, hif := s.hif } = s ∧
          (ck = false → t.host = s.host ∧ t.hif = s.hif) ∧
          t.tick = { u.tick with commits := rest } ∧
          t.prog = { s.prog with committed := k, ckpt := if ck then k else s.prog.ckpt }) ∧
      (s.prog.step = false → k = strokeCount s.prog.strokes →
        ∃ t, exec .strokeCommit s = .next t ∧ t.prog.phase = .done ∧ t.prog.committed = k ∧
          t.tick.launched = false ∧ t.tick.commits = [] ∧ t.tick.gtc = u.tick.gtc ∧ t.cores = s.cores ∧
          t.memory.regions = s.memory.regions) ∧
      (∀ d, s.prog.step = true → s.srv.decision = some d → d.stroke = k →
        s.memory.ddr.flips = [] →
        ∃ t, exec .strokeCommit s = .next t ∧ t.srv.step = d.step ∧ t.srv.decision = none ∧ t.srv.saved = none ∧
          t.prog = { s.prog with committed := k } ∧ t.tick = { u.tick with commits := rest } ∧
          t.cores = s.cores ∧
          (s.proofs.pairState = 0 → s.load.queue.head?.map (·.kind) ≠ some 2 → t.links = s.links)) ∧
      (s.prog.step = true → (∀ d, s.srv.decision = some d → d.stroke ≠ k) →
        ∃ t, exec .strokeCommit s = .next t ∧ { t with tick := s.tick, prog := s.prog } = s ∧
          t.tick = { u.tick with commits := rest } ∧ t.prog = { s.prog with committed := k })) ∧
    (∀ d, s.proofs.pairState = 1 → s.prog.step = true → s.srv.decision = some d → d.stroke = k →
      s.memory.ddr.flips = [] → (∀ o, o ∈ d.outs → o.done = none ∧ o.gone = false) → d.retired = [] →
      s.load.fell ≠ some d.step → s.load.queue.head?.map (·.kind) ≠ some 2 → s.proofs.store = [] →
      s.proofs.held = [] → s.proofs.due = none → s.proofs.ownHeads = [] → recordRoom s 1 = true →
      let head := sha256 (digestBytes s.proofs.head ++ chainBody s false s.prog.devices d.step 0 0)
      let peer := s.proofs.peerHeads.find? fun p => p.1 == d.step
      ∃ t, exec .strokeCommit s = .next t ∧ t.srv.step = d.step ∧ t.proofs.head = head ∧
        { dst := s.fab.id ^^^ 2 ^ 23, mtype := 0x18, session := 1, a := d.step, digest := head : MgmtOut } ∈
          t.fab.mgmtOut ∧
        (peer = none → t.proofs.pairState = 1 ∧ t.proofs.matched = s.proofs.matched ∧
          t.proofs.ownHeads = [(d.step, head, t.tick.gtc)]) ∧
        (∀ p, peer = some p → p.2 = head → t.proofs.pairState = 1 ∧ t.proofs.ownHeads = [] ∧
          t.proofs.matched = max s.proofs.matched d.step) ∧
        (∀ p, peer = some p → p.2 ≠ head → t.proofs.pairState = 3 ∧ t.proofs.divStep = d.step ∧
          t.proofs.ownHeads = []))

/-! ### Device memory and registers -/

/-- Scrub writes corrected words back, of device memory and of an idle spare, and changes no byte that a read
delivers; the halving halves every score
and clears the counts of uncorrectable words; a copied channel is served by the spare; a repaired granule
that no descriptor waits for holds the bytes it was rewritten with and no other byte of DDR changes (R150 to R154,
R158). The model's own choices in it: the idle spare's scrub and scores (log 92), the moment at which a copy's errors
are scored (log 101), and logs 9, 10 and 69. -/
def Obligations.MemoryEventsComplete : Prop :=
  ∀ (s : State),
    (∀ addr w, s.memory.scrubEn = true → s.memory.zeroed = true → addr < ddrEnd →
      badWords s.memory.ddr (lineOf addr) 64 = [] → (∀ c, (chanAt s c).ue < 16) →
      ∃ t, exec (.patrolScrub (.mapped addr) w) s = .next t ∧
        (∀ a, memByte t.memory.ddr a = memByte s.memory.ddr a) ∧
        (w = true → t.memory.ddr = s.memory.ddr) ∧
        (w = false → ∀ i, i ∈ correctedWords s.memory.ddr (lineOf addr) 64 →
          look 0 t.memory.ddr.flips i = 0) ∧
        t.cores = s.cores ∧ t.tick = s.tick ∧ t.prog = s.prog) ∧
    (∀ d o w, s.memory.scrubEn = true → s.memory.zeroed = true → d < 8 → o < 2 ^ 36 → 9 ≤ (spareAt s d).pos →
      (spareAt s d).progress ≠ 100 → (chanAt s (10 * d + 9)).ue < 16 →
      badWords { flips := (spareAt s d).flips } (lineOf o) 64 = [] →
      ∃ t, exec (.patrolScrub (.spare d o) w) s = .next t ∧ t.memory.ddr = s.memory.ddr ∧
        (w = false → ∀ i, i ∈ correctedWords { flips := (spareAt s d).flips } (lineOf o) 64 →
          look 0 (spareAt t d).flips i = 0) ∧
        t.cores = s.cores ∧ t.tick = s.tick ∧ t.prog = s.prog) ∧
    (s.tick.running = true → ∃ t, exec .channelScoreHalving s = .next t ∧
      { t with memory := s.memory, tick := s.tick } = s ∧
      t.tick = { s.tick with gtc := max s.tick.gtc (s.memory.halvedAt + 2 ^ 32) } ∧
      t.memory = { s.memory with chans := t.memory.chans, halvedAt := s.memory.halvedAt + 2 ^ 32 } ∧
      ∀ c, c < 80 → chanAt t c = { chanAt s c with score := (chanAt s c).score / 2, ue := 0 }) ∧
    (∀ d, d < 8 → (spareAt s d).pos < 9 → (spareAt s d).progress < 100 →
      (chanAt s (10 * d + (spareAt s d).pos)).ue < 16 →
      (∀ p, p ∈ s.memory.ddr.flips → chanOf (8 * p.1) = 9 * d + (spareAt s d).pos → (eccRead p.2).1 ≠ .bad) →
      ∃ t, exec (.copyOutRemap d) s = .next t ∧
        physChan t.memory (9 * d + (spareAt s d).pos) = 10 * d + 9 ∧
        (∀ e, e ≠ d → spareAt t e = spareAt s e) ∧
        (spareAt t d).state = (if (spareAt s d).state = 1 then 2 else (spareAt s d).state) ∧
        (spareAt t d).progress = 100 ∧ (∀ a, memByte t.memory.ddr a = memByte s.memory.ddr a) ∧
        t.cores = s.cores ∧ t.tick = (advance s ((spareAt s d).since + copyTicks)).tick) ∧
    (∀ addr bytes, (kindAt s.memory addr = some 0 ∨ kindAt s.memory addr = some 2) → bytes.length = 2048 →
      (∀ p, p ∈ s.cores → ∀ q, q ∈ p.2.dma → ∀ op, op ∈ q.2 → op.stall ≠ some (addr / 2048 * 2048)) →
      ∃ t, exec (.granuleRepairComplete addr bytes) s = .next t ∧ { t with memory := s.memory } = s ∧
        addr / 2048 * 2048 ∈ t.memory.repaired ∧
        (∀ k, k < 2048 → memByte t.memory.ddr (addr / 2048 * 2048 + k) = bytes.getD k 0) ∧
        ∀ a, (a < addr / 2048 * 2048 ∨ addr / 2048 * 2048 + 2048 ≤ a) →
          memByte t.memory.ddr a = memByte s.memory.ddr a)

/-- BAR0 accepts naturally aligned reads and writes of 1, 2, 4 and 8 B: a short read returns the bytes that
it covers, an 8-byte access covers two registers with the lower address first, a short write never takes
effect, and a misaligned access or one of another size reads 0 and writes nothing (R490). -/
def Obligations.RegisterAccessSizes : Prop :=
  ∀ (s : State) (off size : Nat) (v : DWord),
    ((size ≠ 1 ∧ size ≠ 2 ∧ size ≠ 4 ∧ size ≠ 8) ∨ off % size ≠ 0 →
      (readReg s off size).2 = 0 ∧ exec (.registerWrite ⟨0, off⟩ size v) s = .next s) ∧
    (size = 1 ∨ size = 2 → exec (.registerWrite ⟨0, off⟩ size v) s = .next s) ∧
    (size = 1 ∨ size = 2 → off % size = 0 → off < 2 ^ 26 →
      (readReg s off size).2 = (readReg s (off / 4 * 4) 4).2 / 2 ^ (8 * (off % 4)) % 2 ^ (8 * size)) ∧
    (off % 8 = 0 → off < 2 ^ 26 → off ≠ 0x40008 →
      (readReg s off 8).2 = (readReg s off 4).2 + (readReg s (off + 4) 4).2 * 2 ^ 32) ∧
    (readReg s 0x40008 8).2 = s.tick.gtc % 2 ^ 64 ∧
    (off % 8 = 0 → off < 2 ^ 26 → ∃ t u, exec (.registerWrite ⟨0, off⟩ 4 (dw (v.toNat % 2 ^ 32))) s = .next t ∧
      exec (.registerWrite ⟨0, off + 4⟩ 4 (dw (v.toNat / 2 ^ 32))) t = .next u ∧
      exec (.registerWrite ⟨0, off⟩ 8 v) s = .next u)

/-- A read that covers a byte of `TCK_GTC_LO` latches the high word of the GTC, and one that covers a byte of
`MEM_POISON_HI` removes the oldest entry of the poison log; an 8-byte read returns both words of one count, or
the entry whole; no other register changes on a read (R492). -/
def Obligations.ReadsThatChangeState : Prop :=
  ∀ (s : State),
    (∃ t, exec (.gtcLoRead 4) s = .next t ∧ { t with tick := s.tick, readData := s.readData } = s ∧
      t.tick = { s.tick with gtcHi := s.tick.gtc / 2 ^ 32 % 2 ^ 32 } ∧
      t.readData.toNat = s.tick.gtc % 2 ^ 32) ∧
    (∀ size, size = 1 ∨ size = 2 ∨ size = 8 → ∃ t, exec (.gtcLoRead size) s = .next t ∧
      { t with tick := s.tick, readData := s.readData } = s ∧
      t.tick = { s.tick with gtcHi := s.tick.gtc / 2 ^ 32 % 2 ^ 32 } ∧
      (size = 8 → t.readData.toNat = s.tick.gtc % 2 ^ 64)) ∧
    (∀ off size, (size = 1 ∨ size = 2 ∨ size = 4 ∨ size = 8) → off % size = 0 →
      off < 0x30048 → 0x30044 < off + size →
      ∃ t, exec (.poisonLogRead off size) s = .next t ∧
        { t with memory := s.memory, readData := s.readData } = s ∧
        t.memory = { s.memory with
          poison := s.memory.poison.drop 1
          overflow := s.memory.overflow && decide (s.memory.poison.drop 1 ≠ []) } ∧
        (size = 8 → t.readData.toNat = (readReg s 0x30040 4).2 + (readReg s 0x30044 4).2 * 2 ^ 32)) ∧
    (∀ off size, (off + size ≤ 0x30044 ∨ 0x30048 ≤ off) → (off + size ≤ 0x40008 ∨ 0x4000C ≤ off) →
      ∃ t, exec (.poisonLogRead off size) s = .next t ∧ { t with readData := s.readData } = s)

/-- A register write acts field by field: TCK_CTRL while it is not locked, PWR_CAP within its range, the W1S
bits of HTH_CORE_RUNTIME, which the stile's mirror keeps; locked fields stay; ENABLE of a VF that may be enabled takes
a 1. A VF's BAR0 shows its own window and takes writes
there and in its MSI-X table alone, with ADAPTER read-only (R28, R34, R208, R441, R487, R491). The model's own
choices in it: logs 43 and 89. -/
def Obligations.RegisterWritesActByField : Prop :=
  ∀ (s : State) (v : DWord),
    let w := v.toNat % 2 ^ 32
    (s.tick.lock = true → exec (.registerWrite ⟨0, 0x40004⟩ 4 v) s = .next s) ∧
    (s.tick.lock = false → exec (.registerWrite ⟨0, 0x40004⟩ 4 v) s = .next { s with tick := { s.tick with
      quant := max 4 (min 256 (bits w 8 0)), limit := max 6 (min 64 (bits w 22 16)), spread := bit w 23
      lock := bit w 31 } }) ∧
    exec (.registerWrite ⟨0, 0x6000C⟩ 4 v) s =
      .next { s with pwr := { s.pwr with cap := max 4000 (min 12500 (bits w 13 0)) } } ∧
    (∀ h, h < 48 →
      ∃ t, exec (.registerWrite ⟨0, 0x100000 + 0x10000 * h + 4⟩ 4 v) s = .next t ∧ OnlyHeath s t h ∧
        heathAt t h = { heathAt s h with
          runtime := (heathAt s h).runtime ||| BitVec.ofNat 27 w
          mirror := (heathAt s h).mirror ||| (heathAt s h).runtime ||| BitVec.ofNat 27 w }) ∧
    exec (.registerWrite ⟨0, 0x40008⟩ 4 v) s = .next s ∧
    (∀ f off size, 0 < f → f < 64 →
      ((fnAt s f).pci.present = false → exec (.registerWrite ⟨f, off⟩ size v) s = .next s) ∧
      (size < 4 ∨ off % size ≠ 0 ∨ 2 ^ 16 < off + size ∨ (0x40 ≤ off ∧ off < 0x2000) ∨ 0x2400 ≤ off →
        exec (.registerWrite ⟨f, off⟩ size v) s = .next s) ∧
      (bit v.toNat 0 = true →
        exec (.registerWrite ⟨f, 0⟩ 4 v) s = .next (if (fnAt s f).pci.present = true ∧ (fnAt s f).state = 0 ∧
            s.die.d48 = true ∧ mayEnable f (fnAt s f).pci = true then
          updFn s f fun x => { x with enable := true } else s)) ∧
      (off < 0x40 → off % 4 = 0 →
        vfReadValue s f off 4 = (readReg s (0x10100 + 0x40 * f + off) 4).2) ∧
      (∀ k, k < 64 → (fnAt s f).pci.present = true → (look {} s.hif.msix (4096 * f + k)).pend = false →
        ∃ t, exec (.registerWrite ⟨f, 0x2000 + 16 * k + 8⟩ 4 v) s = .next t ∧
          { t with hif := { t.hif with msix := s.hif.msix } } = s ∧
          look {} t.hif.msix (4096 * f + k) =
            { look {} s.hif.msix (4096 * f + k) with data := BitVec.ofNat 32 v.toNat } ∧
          (∀ j, j ≠ 4096 * f + k → look {} t.hif.msix j = look {} s.hif.msix j)))

/-- HOME_MR is (col div 2) for heath rows 0 to 2 and 4 + (col div 2) for rows 3 to 5; when STATE reads OFF, the
other fields of HTH_STATUS and of HTH_CORE_MAP read as at reset (R35, R499). -/
def Obligations.HeathOffReadsAsReset : Prop :=
  ∀ (s : State) (h : Nat), h < 48 →
    let home := (if h / 8 ≤ 2 then 0 else 4) + h % 8 / 2
    bits (readReg s (0x100000 + 0x10000 * h + 0xC) 4).2 19 17 = home ∧
    ((heathAt s h).state = .off →
      (readReg s (0x100000 + 0x10000 * h + 0xC) 4).2 = 3 + home * 2 ^ 17 ∧
      (readReg s (0x100000 + 0x10000 * h + 0x8) 4).2 = 0)

/-- A write of a region entry sets its fields; WP is write-1-to-set and clears with VALID. While a program is
loaded, the fields of a valid entry stay but for WP, which sets; entry 63 is fixed (R140, R141). That a write
with VALID 0 leaves a loaded program's entry whole, WP included, is the model's reading (log 42), as is that it takes
away the mark of an entry that a load created (log 84). -/
def Obligations.RegionEntriesTakeTheirFields : Prop :=
  ∀ (s : State) (n : Nat) (v : Word), n < 63 →
    let r := regionNo s.memory n
    let fixed := progLive s && r.valid
    let b := bit v.toNat 0
    (∃ t, exec (.regionEntryWrite n 0 v) s = .next t ∧ { t with memory := s.memory } = s ∧
      { t.memory with regions := s.memory.regions } = s.memory ∧
      (∀ m, m ≠ n → regionNo t.memory m = regionNo s.memory m) ∧
      (fixed = true → regionNo t.memory n = { r with wp := r.wp || (b && bit v.toNat 4) }) ∧
      (fixed = false → regionNo t.memory n = { r with
        valid := b, kind := bits v.toNat 3 1, slot := bits v.toNat 10 8
        wp := b && (r.wp || bit v.toNat 4), created := false })) ∧
    (fixed = false → ∃ t, exec (.regionEntryWrite n 1 v) s = .next t ∧
      regionNo t.memory n = { r with base := v.toNat % 2 ^ 27, created := false } ∧
      { t with memory := { s.memory with regions := t.memory.regions } } = t ∧ { t with memory := s.memory } = s) ∧
    (fixed = false → ∃ t, exec (.regionEntryWrite n 2 v) s = .next t ∧
      regionNo t.memory n = { r with limit := v.toNat % 2 ^ 27, created := false } ∧
      { t with memory := { s.memory with regions := t.memory.regions } } = t ∧ { t with memory := s.memory } = s) ∧
    (fixed = true → exec (.regionEntryWrite n 1 v) s = .next s ∧ exec (.regionEntryWrite n 2 v) s = .next s) ∧
    exec (.regionEntryWrite 63 0 v) s = .next s

/-! ### Settings of the serving engine and host rings -/

/-- SRV_ENABLE sets ENABLE where the engine area lies in a valid region of KIND 4, SRV_DISABLE clears it; a
change of PAGE_TOKENS or PREFIX is taken with no request active, empties the prefix index, and is else refused
with CFG_REJECT, and a reserved value leaves its field; the adapter region is created in the lowest free entry, and
serves a LOAD_ADAPTER that waits; a host ring's head is taken and one waiting proof is copied, byte for byte, from the
store to its entry of the host proof ring (R236, R259, R278, R297, R301, R324, R491). The model's own choices in it:
logs 43, 63 and 78. -/
def Obligations.ServingSettingsChange : Prop :=
  ∀ (s : State),
    (exec .srvEnable s = .next (if areaOk s then { s with srv := { s.srv with enable := true } } else s)) ∧
    (exec .srvDisable s = .next { s with srv := { s.srv with enable := false } }) ∧
    (∀ p m, ¬ (p = s.srv.pageTok ∧ m = s.srv.pfxMode) → p ≤ 4 → m ≤ 2 →
      (s.srv.books.reqs ≠ [] →
        exec (.srvConfigChange p m) s = .next { s with srv := { s.srv with cfgReject := true } }) ∧
      (s.srv.books.reqs = [] → ∃ t, exec (.srvConfigChange p m) s = .next t ∧
        { t with srv := s.srv, memory := s.memory } = s ∧ t.srv.books.pfx = [] ∧
        t.srv.books.tenants = s.srv.books.tenants ∧ t.memory = { s.memory with ddr := t.memory.ddr } ∧
        (s.prog.step = false ∨ p = s.srv.pageTok → t.memory = s.memory ∧ t.srv.dirty = s.srv.dirty) ∧
        t.srv = { s.srv with pageTok := p, pfxMode := m, books := t.srv.books, saved := t.srv.saved
                             dirty := t.srv.dirty })) ∧
    (∀ p m, 4 < p → exec (.srvConfigChange p m) s = exec (.srvConfigChange s.srv.pageTok m) s) ∧
    (∀ p m, 2 < m → exec (.srvConfigChange p m) s = exec (.srvConfigChange p s.srv.pfxMode) s) ∧
    (∀ units count n, progLive s = false → s.load.adapters = [] → s.load.adEnable = false →
      freeRegion s.memory = some n → 0 < units → units < 2 ^ 16 → 0 < count → count ≤ 1024 →
      (s.load.adBase + units * count) * 2 ^ 21 ≤ ddrEnd →
      meetsRegion s.memory (s.load.adBase * 2 ^ 21) ((s.load.adBase + units * count) * 2 ^ 21) = false →
      ∃ t, exec (.adapterRegionEnable units count) s = .next (serveWaiting t) ∧
        (s.load.waiting = false → serveWaiting t = t) ∧ { t with memory := s.memory, load := s.load } = s ∧
        t.load = { s.load with adUnits := units, adCount := count, adEnable := true } ∧
        regionNo t.memory n = { valid := true, kind := 2, wp := true, base := s.load.adBase
                                limit := s.load.adBase + units * count - 1 } ∧
        ∀ m, m ≠ n → regionNo t.memory m = regionNo s.memory m) ∧
    (∀ c : Word, exec (.hostRingHeadWrite true c) s = .next { s with proofs := { s.proofs with iHead := c.toNat } } ∧
      exec (.hostRingHeadWrite false c) s = .next { s with proofs := { s.proofs with pHead := c.toNat } }) ∧
    (∀ x, nextCopy s = some x → proofRoom s = true →
      (s.proofs.pairState ≠ 1 ∨ (x.proof.last ≤ s.proofs.matched ∧ s.proofs.ownHeads = [])) →
      badWords s.memory.ddr (storeAddr s x.q) 256 = [] → correctedWords s.memory.ddr (storeAddr s x.q) 256 = [] →
      ∃ t, exec .proofRingCopy s = .next t ∧ t.proofs.pDone = s.proofs.pDone + 1 ∧ t.cores = s.cores ∧
        t.tick = s.tick ∧ t.prog = s.prog ∧ t.srv = s.srv ∧ t.load = s.load ∧
        (s.proofs.waitDone = none → (∀ y, y ∈ s.proofs.store → s.proofs.inRing < y.proof.last) →
          let e := s.proofs.pBase * 4096 + 256 * (s.proofs.pDone % max 1 (proofRingEntries s))
          (∀ i, i < 256 → memByte t.host (e + i) = memByte s.memory.ddr (storeAddr s x.q + i)) ∧
          ∀ a, a < e ∨ e + 256 ≤ a → memByte t.host a = memByte s.host a))

/-! ### Functions and rings -/

/-- FUNCTION_ENABLE with a valid context table runs the function with the rings of the table, and with a bad
one sets FAULT and its cause; a disable takes the rings away, ends the generation and drops its pending
interrupts and what waits on the load path; an FLR holds the function in RESET until it completes, and PF0's disables
every function and leaves the load path idle (R415, R436 to R440). The model's own choices in it: logs 12 and 49, and
that the pending bits are cleared at the disable, where R437 says only that none of the interrupts is sent (log 89). -/
def Obligations.FunctionsEnableAndDisable : Prop :=
  ∀ (s : State) (f : Nat), f < 64 →
    (∀ p table, (fnAt s f).state = 0 → s.die.d48 = true → mayEnable f p = true →
      (table.status = .ok → ctxOk f table = true →
        ∃ t, exec (.functionEnable f p table) s = .next t ∧ { t with hif := s.hif, host := s.host } = s ∧
          (∀ g, g ≠ f → fnAt t g = fnAt s g) ∧ (fnAt t f).state = 1 ∧ (fnAt t f).enable = true ∧
          (fnAt t f).resetEv = false ∧
          ((fnAt s f).resetEv = false → OnlyFn s t f ∧
            fnAt t f = { fnAt s f with pci := p, enable := true, state := 1
                                       rings := ringsOf s.hif.link.cache table })) ∧
      (table.status = .ok → ctxOk f table = false →
        ∃ t, exec (.functionEnable f p table) s = .next t ∧ OnlyFn s t f ∧
          fnAt t f = { fnAt s f with pci := p, enable := false, fault := true, cause := 1 }) ∧
      (table.status ≠ .ok →
        ∃ t, exec (.functionEnable f p table) s = .next t ∧ OnlyFn s t f ∧
          fnAt t f = { fnAt s f with
            pci := p, enable := false, fault := true, cause := if table.status = .poison then 4 else 2 })) ∧
    (∀ c, c ≠ .flr → c ≠ .hostLink → (fnAt s f).state = 1 →
      ∃ t, exec (.functionDisable f c) s = .next t ∧ (fnAt t f).state = 0 ∧ (fnAt t f).enable = false ∧
        (fnAt t f).rings = [] ∧ (fnAt t f).held = [] ∧ (fnAt t f).gen = (fnAt s f).gen + 1 ∧
        (∀ v, v < 4096 → (look {} t.hif.msix (msixKey f v)).pend = false) ∧
        ((∀ h, h ∈ (fnAt s f).held → h.frees = none) → { t with hif := s.hif, load := s.load } = s ∧
          (∀ g, g ≠ f → fnAt t g = fnAt s g) ∧
          ∀ o, o.kind ≠ 2 → (o ∈ t.load.queue ↔ o ∈ s.load.queue ∧ ¬ (o.answer = true ∧ o.who.fn = f)))) ∧
    (∃ t, exec (.functionDisable f .hostLink) s = .next t ∧ t.hif.link.rate = 0 ∧
      ∀ g, g < 64 → (fnAt t g).state ≠ 1) ∧
    (f ≠ 0 → ∃ t, exec (.functionDisable f .flr) s = .next t ∧ (fnAt t f).state = 2 ∧
      ((∀ h, h ∈ (fnAt s f).held → h.frees = none) → ∀ g, g ≠ f → fnAt t g = fnAt s g) ∧
      ((fnAt s f).state = 1 → (fnAt t f).rings = [] ∧ (fnAt t f).gen = (fnAt s f).gen + 1)) ∧
    ((fnAt s f).state = 2 → ∃ t, exec (.flrComplete f) s = .next t ∧ (fnAt t f).state = 0 ∧
      (fnAt t f).gen = (fnAt s f).gen ∧ (fnAt t f).resetEv = true ∧
      (f = 0 ∨ (ringAt s 0 128).vector < 4096 → ∀ v, v < 4096 → look {} t.hif.msix (msixKey f v) = {})) ∧
    (∃ t, exec .pf0Flr s = .next t ∧ (fnAt t 0).state = 2 ∧ (∀ g, g < 64 → (fnAt t g).state ≠ 1) ∧
      t.load.cur = none ∧ t.load.queue = [] ∧ t.load.adapters = [] ∧
      ∀ n, (slotAt t n).state = .empty ∨ (slotAt t n).state = .resident)

/-- A doorbell line that the device snoops or polls notes the tail of its submission ring and the head of its
completion ring. Room in a completion ring lets held completions out; a bad word of the queue entry that is read
stops a program. The event ring is told what it lost, a ring
whose memory fails is stopped with FAULT and its cause, and a failed event ring takes its function down; a
coalescing time-out signals the ring, and an unmasked vector that pends is sent (R410, R416, R418, R430 to R432,
R442). The model's own choices in it: logs 48, 88 and 93, the tick at which a poll or a time-out falls due (log 9), and
which words of the holding queue are read (log 96). -/
def Obligations.DoorbellsAndRings : Prop :=
  ∀ (s : State) (f r : Nat), f < 64 → r < 64 → (fnAt s f).state = 1 →
    (∀ tail head, s.die.d48 = true → (ringAt s f r).valid = true → (ringAt s f r).stopped = false →
      (ringAt s f (64 + r)).valid = true →
      (tail % 2 ^ 32 + 2 ^ 32 - (ringAt s f r).consumed % 2 ^ 32) % 2 ^ 32 ≤ 2 ^ (ringAt s f r).log2 →
      let read := fun (t : State) => OnlyFn s t f ∧
        ringAt t f r = { ringAt s f r with tail := tail % 2 ^ 32, shared := s.hif.link.cache } ∧
        ringAt t f (64 + r) = { ringAt s f (64 + r) with consumed := head % 2 ^ 32 } ∧
        ∀ q, q ≠ r → q ≠ 64 + r → ringAt t f q = ringAt s f q
      (s.hif.link.cache = true → ∃ t, exec (.doorbellSnoop f r tail ⟨head, .ok⟩) s = .next t ∧ read t) ∧
      (s.hif.link.cache = false → s.hif.link.rate ≠ 0 → ∃ t, exec (.doorbellPoll [f] [r] [tail] [⟨head, .ok⟩]) s = .next t ∧
        t.tick = (advance s (s.hif.polled + 2 ^ s.hif.poll)).tick ∧ t.hif.polled = t.tick.gtc ∧
        read { t with tick := s.tick, hif := { t.hif with polled := s.hif.polled } })) ∧
    (∀ head, (fnAt s f).held = [] → ∃ t, exec (.completionRingRoom f r ⟨head, .ok⟩) s = .next t ∧
      { t with hif := s.hif } = s ∧
      ((ringAt s f (64 + r)).valid = true →
        ringAt t f (64 + r) = { ringAt s f (64 + r) with consumed := head % 2 ^ 32 })) ∧
    (∀ head h, (ringAt s f (64 + r)).valid = true → (fnAt s f).held = [h] → h.ring = r → h.frees = none →
      ringRoom { ringAt s f (64 + r) with consumed := head % 2 ^ 32 } = true →
      let hits := spanHits s.memory.ddr [(queueAddr s f + 64 * h.at_, 64)]
      (hits = [] →
        ∃ t, exec (.completionRingRoom f r ⟨head, .ok⟩) s = .next t ∧ { t with hif := s.hif, host := s.host } = s ∧
          (fnAt t f).held = [] ∧ (ringAt t f (64 + r)).written = (ringAt s f (64 + r)).written + 1) ∧
      ((∃ k, (k, true) ∈ hits) → s.prog.phase = .running → s.prog.step = false → s.tick.stop.valid = false →
        ∃ t, exec (.completionRingRoom f r ⟨head, .ok⟩) s = .next t ∧ t.prog.phase = .done ∧
          t.tick.stop.valid = true ∧ t.tick.stop.code = fcUncorr)) ∧
    (∀ head x, x ≠ .ok → ∃ t, exec (.completionRingRoom f r ⟨head, x⟩) s = .next t ∧
      { t with hif := s.hif, host := s.host } = s ∧ (ringAt t f (64 + r)).stopped = true ∧
      (fnAt t f).fault = true ∧ (fnAt t f).cause = if x = .poison then 4 else 2) ∧
    (∀ head, (ringAt s f 128).valid = true → ∃ t, exec (.eventLost f ⟨head, .ok⟩) s = .next t ∧
      { t with hif := s.hif, host := s.host } = s ∧
      ((fnAt s f).dropped ≠ 0 → ringRoom { ringAt s f 128 with consumed := head % 2 ^ 32 } = true →
        (fnAt t f).dropped = 0 ∧ (ringAt t f 128).written = (ringAt s f 128).written + 1)) ∧
    (∀ head x, x ≠ .ok → ∃ t, exec (.eventLost f ⟨head, x⟩) s = .next t ∧ (fnAt t f).state = 0 ∧
      (fnAt t f).fault = true ∧ (fnAt t f).cause = if x = .poison then 4 else 2) ∧
    (∀ q, (ringAt s f q).irq = true → (ringAt s f q).unsig ≠ 0 → (ringAt s f q).coalTicks ≠ 0 →
      (look {} s.hif.msix (msixKey f (ringAt s f q).vector)).masked = false →
      ∃ t, exec (.interruptCoalesceTimeout f q) s = .next t ∧ (ringAt t f q).unsig = 0 ∧
        t.hif.irqs = (f, (ringAt s f q).vector) :: s.hif.irqs ∧ { t with hif := s.hif, tick := s.tick } = s) ∧
    (∀ v, v < vectorsOf f → ∃ t, exec (.msixUnmask f v) s = .next t ∧ { t with hif := s.hif } = s ∧
      look {} t.hif.msix (msixKey f v) = { look {} s.hif.msix (msixKey f v) with masked := false, pend := false } ∧
      t.hif.irqs = if (look {} s.hif.msix (msixKey f v)).pend then (f, v) :: s.hif.irqs else s.hif.irqs)

/-! ### Descriptors -/

/-- SUBMIT_REQUEST that no condition refuses takes the lowest FREE entry, in INTAKE; CANCEL of an open request
and a change of budget or adapter under a step program wait for the next boundary; QUERY writes its record to
its buffer, and fails alone where the buffer does. A change of FUNCTION under active requests is refused, and a
refused submission leaves the request table as it was (R239, R264, R276, R302, R425, R442). Table entries
with an uncorrectable word stop the partition as they are read instead (R235). The model's own choices in it: logs
50, 51 and 56. -/
def Obligations.RequestDescriptorsTaken : Prop :=
  ∀ (s : State) (f r : Nat) (d : BitVec 512),
    let u := consume s f r
    let w := askerFor u f r d
    (∀ args prompt resume, Reads s f r d 0x01 → (∀ i, freeReq s = some i → reqBad s i = false) →
      tenantBad s (subTenant d) = false →
      (∀ i, submitRefusal u f d args prompt resume = none → freeReq u = some i →
        ∃ t, exec (.submitRequest f r d args prompt resume) s = .next t ∧
          (reqAt t i).state = .intake ∧ (reqAt t i).tag = descTag d ∧ (reqAt t i).fn = f ∧
          (reqAt t i).maxNew = subMaxNew d ∧ (reqAt t i).arrival = s.tick.gtc ∧
          (∀ j, j ≠ i → reqAt t j = reqAt s j) ∧ { t with srv := s.srv, hif := s.hif, host := s.host } = s) ∧
      (∀ e, submitRefusal u f d args prompt resume = some e →
        exec (.submitRequest f r d args prompt resume) s = .next (answerStatus u w e))) ∧
    (Reads s f r d 0x02 →
      let i := bits (descWord d 0) 47 32
      reqBad s i = false →
      (unended (reqAt s i) = true → (reqAt s i).tag = dw (descWord d 2) → (f = 0 ∨ (reqAt s i).fn = f) →
        progLive s = true → s.prog.step = true →
        ∃ t, exec (.cancel f r d) s = .next t ∧ { t with srv := s.srv, hif := s.hif, host := s.host } = s ∧
          t.srv = { s.srv with cancels := s.srv.cancels ++
            [{ who := w, kind := 2, idx := i, tag := dw (descWord d 2) }] }) ∧
      (unended (reqAt s i) = false → exec (.cancel f r d) s = .next (answerStatus u w stAlready))) ∧
    (Reads s f r d 0x07 → tenantBad s (bits (descWord d 0) 43 32) = false → fnActive u (budgetOf d).fn = true →
      (stepRuns s = true →
        ∃ t, exec (.setBudget f r d) s = .next t ∧ { t with srv := s.srv, hif := s.hif, host := s.host } = s ∧
          t.srv = { s.srv with budgets := s.srv.budgets ++
            [{ who := w, kind := 7, idx := bits (descWord d 0) 43 32, ten := budgetOf d }] }) ∧
      (stepRuns s = false → tenantActive s (bits (descWord d 0) 43 32) ≠ 0 →
        (budgetOf d).fn ≠ (tenantAt s (bits (descWord d 0) 43 32)).fn →
        exec (.setBudget f r d) s = .next (answerStatus u w stNoRes))) ∧
    (∀ n, Reads s f r d 0x06 → progLive s = true → s.prog.step = true →
      adapterOf s (bits (descWord d 0) 34 32) (bits (descWord d 0) 55 36) (bits (descWord d 2) 31 0)
        (· == .live) = some n →
      ∃ t, exec (.retireAdapter f r d) s = .next t ∧ { t with srv := s.srv, hif := s.hif, host := s.host } = s ∧
        t.srv = { s.srv with retires := s.srv.retires ++ [{ who := w, kind := 6, idx := n }] }) ∧
    (∀ buffer, Reads s f r d 0x0A →
      let x : QueryDesc := { words := d, buffer := buffer }
      let k := bits (descWord d 0) 34 32
      let i := bits (descWord d 0) 63 40
      (k = 0 → reqBad s i = false) → (k = 1 → tenantBad s i = false) →
      (mayQuery u f k i = true → buffer = .ok → exec (.query f r x) s = .next
        (answerEvent (hostWrite u (descWord d 2) (queryBytes u k i)) w stOK 0 (queryBytes u k i).length 0 0)) ∧
      (mayQuery u f k i = true → ∀ e, readRefusal buffer = some e →
        exec (.query f r x) s = .next (answerStatus u w e)) ∧
      (mayQuery u f k i = false → exec (.query f r x) s = .next (answerStatus u w stMalformed)))

/-- On an idle load path LOAD_MODEL begins its slot's load and LOAD_ADAPTER takes the lowest FREE adapter slot: a
device alone starts at once, one of a set waits for the others' READY. Behind another operation, behind a swap, or
while DDR is zeroed, each waits its turn, and a LOAD_ADAPTER that finds no FREE slot waits or is refused. A LOAD_MODEL of size 0 empties
its slot. SWAP_MODEL is scheduled over its own slot and takes its place in the order read. LAUNCH_PROGRAM is
accepted, its image read and its load due; ABORT_PROGRAM gives up a launch that has not come (R284, R287, R288,
R290, R301, R397, R427). The model's own choices in it: logs 50, 61 and 62. -/
def Obligations.LoadsAndLaunchesTaken : Prop :=
  ∀ (s : State) (f r : Nat) (d : BitVec 512) (args : Fetch),
    let u := consume s f r
    let w := askerFor u f r d
    let idle := s.load.cur = none ∧ s.load.writing = false ∧ ddrHeld s = false ∧ s.load.queue = []
    let waits := fun (o : LoadOp) => ∃ m, m < o.set ∧ m ≠ ownMember s o ∧ s.load.readies.contains m = false
    let asks := fun (t : State) (o : LoadOp) (base : Nat) => t.fab.mgmtOut =
      ((otherMembers s o).map fun m =>
        ({ dst := m, mtype := mtReady, a := ownMember s o, b := base } : MgmtOut)).reverse ++ s.fab.mgmtOut
    (Reads s f r d 0x03 → loadRefusal u d 1 args = none →
      let o := loadOpOf u w 1 args
      (idle → 0 < o.near + o.far → ∀ e, modelRefusal u o = some e →
        exec (.loadModel f r d args) s = .next (answerStatus u w e)) ∧
      (idle → 0 < o.near + o.far → modelRefusal u o = none → (o.set ≤ 1 ∨ waits o) →
        ∃ t, exec (.loadModel f r d args) s = .next t ∧ t.load.cur = some o ∧ asks t o o.base ∧
          (o.set ≤ 1 → t.load.started = true) ∧
          (slotAt t o.slot).state = .loading ∧ (slotAt t o.slot).near = o.near ∧
          (slotAt t o.slot).farBytes = o.far ∧ (∀ n, n ≠ o.slot → slotAt t n = slotAt s n) ∧
          { t with memory := s.memory, load := s.load, fab := s.fab, links := s.links, hif := s.hif
                   host := s.host } = s ∧ t.memory.ddr = s.memory.ddr) ∧
      (¬ idle → 0 < o.near + o.far → ∃ t, exec (.loadModel f r d args) s = .next t ∧
        { t with load := s.load, hif := s.hif, host := s.host } = s ∧
        t.load = { s.load with queue := s.load.queue ++ [o] }) ∧
      (o.near + o.far = 0 → (∀ e, emptyRefusal u o = some e →
          exec (.loadModel f r d args) s = .next (answerStatus u w e)) ∧
        (idle → emptyRefusal u o = none → ∃ t, exec (.loadModel f r d args) s = .next t ∧
          (slotAt t o.slot).state = .zeroing ∧ t.load.cur = some { o with kind := 4 } ∧
          (∀ n, n ≠ o.slot → slotAt t n = slotAt s n) ∧ t.memory = s.memory))) ∧
    (Reads s f r d 0x05 → loadRefusal u d 3 args = none →
      let o := loadOpOf u w 3 args
      (idle → ∀ e, adapterRefusal u o = some e → exec (.loadAdapter f r d args) s = .next (answerStatus u w e)) ∧
      (∀ n, idle → adapterRefusal u o = none → freeAdapter u = some n → (slotAt s o.slot).split < 4 →
        (o.set ≤ 1 ∨ waits o) →
        ∃ t, exec (.loadAdapter f r d args) s = .next t ∧ asks t o (adapterAddr s n) ∧
          t.load.cur = some { o with ad := n, base := adapterAddr s n } ∧ (o.set ≤ 1 → t.load.started = true) ∧
          adapterAt t n = { state := .loading, id := o.id, version := o.version, slot := o.slot
                            digest := o.root } ∧
          (∀ m, m ≠ n → adapterAt t m = adapterAt s m) ∧ t.load.slots = s.load.slots ∧
          { t with load := s.load, fab := s.fab, links := s.links, hif := s.hif, host := s.host } = s) ∧
      (idle → adapterRefusal u o = none → freeAdapter u = none → o.policy = 1 →
        ∃ t, exec (.loadAdapter f r d args) s = .next t ∧
          { t with load := s.load, hif := s.hif, host := s.host } = s ∧
          t.load = { s.load with cur := some o, waiting := true, since := s.tick.gtc }) ∧
      (idle → adapterRefusal u o = none → freeAdapter u = none → o.policy ≠ 1 →
        exec (.loadAdapter f r d args) s = .next (answerStatus u w stNoRes)) ∧
      (¬ idle → ∃ t, exec (.loadAdapter f r d args) s = .next t ∧
        { t with load := s.load, hif := s.hif, host := s.host } = s ∧
        t.load = { s.load with queue := s.load.queue ++ [o] })) ∧
    (Reads s f r d 0x04 → loadRefusal u d 2 args = none →
      let o := loadOpOf u w 2 args
      let x := { o with base := (slotAt s o.slot).base, farAddr := (slotAt s o.slot).farAddr }
      (∀ e, swapRefusal u o = some e → exec (.swapModel f r d args) s = .next (answerStatus u w e)) ∧
      (swapRefusal u o = none →
        ∃ t, exec (.swapModel f r d args) s = .next t ∧ { t with load := s.load, hif := s.hif, host := s.host } = s ∧
          t.load = { s.load with swap := some x, queue := s.load.queue ++ [x], writing := false, matchedAt := none
                                 drained := [], sentDrained := false, fell := none })) ∧
    (∀ image, Reads s f r d 0x08 →
      (launchRefusal u (descWord d 5) args = none →
        ∃ t, exec (.launchProgram f r d args image) s = .next t ∧
          { t with prog := s.prog, hif := s.hif, host := s.host } = s ∧
          t.prog = { s.prog with phase := .accepted, asker := w, args := launchArgs (descWord d 5) args
                                 image := image.bytes, imgBytes := bits (descWord d 3) 47 0
                                 imgRead := image.status, seed := dw (descWord d 4) }) ∧
      (∀ e, launchRefusal u (descWord d 5) args = some e →
        exec (.launchProgram f r d args image) s = .next (launchRefused u w e))) ∧
    (Reads s f r d 0x09 → (standsAlone s = true ∨ isCoord s = true) → s.prog.phase = .loaded →
      s.tick.launched = false → s.prog.abort = none →
      ∃ t, exec (.abortProgram f r d) s = .next t ∧ t.prog.phase = .done ∧ t.cores = s.cores ∧
        t.memory = s.memory)

/-! ### Fuse commands and the guard -/

/-- A fuse command that its checks refuse shows its status and changes no setting; one that they take spends
its changes and runs, and RETIRED begins with the guard asked to zeroize keys, plates and DDR, and does not complete
before it has. At its completion the setting has its new value, and no other setting changes (R20, R29, R448, R457 to
R461, R464). The model's own choices in it: log 15. -/
def Obligations.FuseCommands : Prop :=
  ∀ (s : State),
    (let taken := fun (c : Instr) (cmd v n : Nat) =>
      (∀ e, fuseRefusal s cmd v n = some e → exec c s = .next { s with lcf := { s.lcf with
        cmd := cmd, value := v % 2 ^ 11, confirm := n % 2 ^ 11, status := e } }) ∧
      (fuseRefusal s cmd v n = none → ∃ t, exec c s = .next t ∧ t.lcf.busy = true ∧ t.lcf.run = (cmd, v) ∧
        (∀ k, leftOf t k = if k = cmd then (leftOf s k).map (fun l => l - changesOf s k v) else leftOf s k) ∧
        t.lcf.state = s.lcf.state ∧ t.lcf.rollback = s.lcf.rollback ∧ t.lcf.revoked = s.lcf.revoked ∧
        t.lcf.eligible = s.lcf.eligible ∧ t.lcf.lockFuse = s.lcf.lockFuse ∧ t.lcf.maps = s.lcf.maps ∧
        t.die.fusedGrade = s.die.fusedGrade ∧
        (¬ (cmd = 1 ∧ v = 3) → { t with lcf := s.lcf, die := s.die, stl := s.stl } = s) ∧
        (cmd = 1 → v = 3 → s.guard.off = false → s.die.d48 = true →
          (s.guard.queue.length ≤ 4 → guardKnown t .zeroizeKeys = true ∧ guardKnown t .zeroizePlates = true ∧
            guardKnown t .zeroizeDdr = true) ∧
          (s.guard.running = none → s.guard.side = [] → s.guard.queue = [] →
            t.guard.running = some .zeroizeKeys ∧ t.guard.queue = [.zeroizePlates, .zeroizeDdr] ∧
            t.stl.identity = false ∧ t.stl.sessions = [] ∧ t.fab.partKey = none ∧ t.fab.pairKey = none ∧
            t.proofs.due = none)))
     ∀ v n, taken (.lifecycleAdvance v n) 1 v n ∧ taken (.downbin n) 2 0 n ∧ taken (.spareCommit n) 3 0 n ∧
      taken (.revokeKey v n) 4 v n ∧ taken (.rollbackAdvance v n) 5 v n ∧ taken (.tickEligToggle n) 6 0 n ∧
      taken (.debugLock n) 7 0 n ∧ taken .debugRelock 8 0 0) ∧
    (progHeld s = false → s.lcf.busy = false → s.die.fusedGrade = 1 → 0 < s.die.downbinLeft →
      fuseRefusal s 2 0 s.die.downbinLeft = none) ∧
    (∀ op, op = .zeroizeKeys ∨ op = .zeroizePlates ∨ op = .zeroizeDdr → s.lcf.run = (1, 3) →
      guardKnown s op = true → exec .fuseCommandComplete s = .next s) ∧
    (∀ cmd v, s.lcf.busy = true → s.lcf.run = (cmd, v) → 1 ≤ cmd → cmd ≤ 8 →
      (cmd = 1 → v = 3 → guardKnown s .zeroizeKeys = false ∧ guardKnown s .zeroizePlates = false ∧
        guardKnown s .zeroizeDdr = false) →
      ∃ t, exec .fuseCommandComplete s = .next t ∧ t.lcf.busy = false ∧ t.lcf.status = 0 ∧
        t.lcf.state = (if cmd = 1 then v else s.lcf.state) ∧
        t.die.fusedGrade = (if cmd = 2 then 2 else s.die.fusedGrade) ∧
        (∀ h, h < 48 → look 0 t.lcf.maps h =
          if cmd = 3 then look 0 s.lcf.maps h ||| (heathAt s h).runtime else look 0 s.lcf.maps h) ∧
        (∀ k, k < 16 → t.lcf.revoked.getLsbD k = (s.lcf.revoked.getLsbD k || (cmd == 4 && v == k))) ∧
        t.lcf.rollback = (if cmd = 5 then v else s.lcf.rollback) ∧
        t.lcf.eligible = (if cmd = 6 then !s.lcf.eligible else s.lcf.eligible) ∧
        t.lcf.lockFuse = (if cmd = 7 then true else s.lcf.lockFuse) ∧
        t.lcf.unlocked = (if cmd = 8 then false else s.lcf.unlocked) ∧
        (∀ k, leftOf t k = leftOf s k) ∧
        (∀ h, h < 48 → heathAt t h = if cmd = 2 ∧ (heathAt s h).state = .short then
          { heathAt s h with state := .up } else heathAt s h) ∧
        { t with lcf := s.lcf, die := s.die, stl := s.stl, tick := s.tick, heaths := s.heaths } = s)

/-- A guaranteed operation starts at once on an idle guard; FREEZE and FENCE_ALL start at once beside one that runs too,
and any other waits behind it, unless 7 wait already; one that runs or waits is not taken twice; once POWER_OFF is
accepted none is. What each does as it starts is FREEZE's stop, FENCE_ALL's hedges, HOST_FLUSH's ends, DUMP's snapshot,
the reset of heaths, the clearing of keys and plates, and for DDR the host's lines taken back (R463 to R467, R473). The
model's own choices in it: logs 13 and 14; that FENCE_ALL leaves a device in teardown there (log 39); and that
HOST_FLUSH ends programs that are not held and marks what is in hand as answered (log 77). -/
def Obligations.GuardOperationsStart : Prop :=
  ∀ (s : State),
   (let frozen := fun (t : State) => (∀ h, h < 48 → s.tick.launched = false ∨ progLive s = true →
        (heathAt t h).frozen = true) ∧
      (s.tick.launched = false → { t with guard := s.guard, cores := s.cores, heaths := s.heaths
                                          transit := s.transit } = s ∧ t.transit = [] ∧
        ∀ v, coreAt t v = abandonCore (coreAt s v)) ∧
      (s.tick.launched = true → progLive s = true → t.prog.phase = .done ∧ t.tick.launched = false ∧
        (s.tick.stop.valid = false → t.tick.stop.cause = 1 ∧ t.tick.stop.isLocal = true))
    let fenced := fun (t : State) => (∀ n, n < 36 → (linkAt t n).fence = true ∧ (linkAt t n).elec = true) ∧
      t.fab.part = if s.fab.part = .teardown then .teardown else .fenced
    let takes := fun (c : Instr) (op : GuardOp) =>
    (s.guard.off = false → guardAvailable s op = true → s.guard.running = none → s.guard.side = [] →
      guardKnown s op = false →
      ∃ t, exec c s = .next t ∧ t.guard.running = some op ∧ t.guard.queue = s.guard.queue ∧
        (op = .freeze → frozen t) ∧ (op = .fenceAll → fenced t) ∧
        (op = .hostFlush → progHeld t = false ∧ (∀ i, (reqAt t i).state = .free) ∧ t.srv.cancels = [] ∧
          t.srv.budgets = [] ∧ t.srv.retires = [] ∧ t.proofs.waitDone = none ∧
          ∀ o, o ∈ t.load.queue → o.answer = false) ∧
        (op = .dump → { t with guard := s.guard, host := s.host, free := s.free } = s ∧
          t.guard.captured = true ∧ t.guard.written = decide (s.hif.link.rate ≠ 0) ∧
          (s.hif.link.rate = 0 → t.host = s.host)) ∧
        (s.tick.launched = false →
          (op = .heathReset → { t with guard := s.guard, cores := s.cores, heaths := s.heaths, lcf := s.lcf
                                       stl := s.stl, pwr := s.pwr } = s ∧
            t.lcf.unlocked = false ∧ (s.lcf.unlocked = false → t.lcf = s.lcf ∧ t.stl = s.stl) ∧
            t.pwr = { s.pwr with throttle := throttleNow s, throttleAt := s.tick.gtc } ∧
            (∀ h, h < 48 → heathAt t h = if s.guard.arg.getLsbD h && (heathAt s h).on then
              (let x := heathAt s h
               if progLive s then { freshHeath x with map := x.map, healthy := x.healthy } else freshHeath x)
              else heathAt s h) ∧
            ∀ v, coreAt t v = if s.guard.arg.getLsbD (heathOf s v) && (heathAt s (heathOf s v)).on then
              zeroCore (coreAt s v) else coreAt s v) ∧
          (op = .zeroizeKeys →
            (s.proofs.due = none → { t with guard := s.guard, stl := s.stl, fab := s.fab, hif := s.hif } = s) ∧
            t.stl.identity = false ∧ t.stl.sessions = [] ∧ t.stl.ideKeys = false ∧ t.fab.partKey = none ∧
            t.fab.pairKey = none ∧ (progLive s = false → t.proofs.due = none)) ∧
          (op = .zeroizePlates → { t with guard := s.guard, cores := s.cores } = s ∧
            ∀ v, coreAt t v = zeroCore (coreAt s v)) ∧
          (op = .zeroizeDdr → { t with guard := s.guard, hif := s.hif } = s ∧ ddrHeld t = true ∧
            t.hif = { s.hif with tracker := [], bisnp := s.hif.tracker.map (fun l => (l, true)) ++ s.hif.bisnp })) ∧
        (op = .powerOff → t.guard.off = true ∧ t.pwr.cause = 4 ∧ t.die.d48 = false ∧
          t.tick.running = false ∧ t.cores = [] ∧ ∀ h, h < 48 → (heathAt t h).on = false)) ∧
    (s.guard.off = false → guardAvailable s op = true → ¬ (s.guard.running = none ∧ s.guard.side = []) →
      guardKnown s op = false →
      (op = .freeze ∨ op = .fenceAll → ∃ t, exec c s = .next t ∧
        t.guard = { s.guard with side := s.guard.side ++ [op] } ∧
        (op = .freeze → frozen t) ∧ (op = .fenceAll → fenced t)) ∧
      (op ≠ .freeze → op ≠ .fenceAll →
        (s.guard.queue.length < 7 →
          ∃ t, exec c s = .next t ∧ { t with guard := s.guard, pwr := s.pwr } = s ∧
            t.guard = { s.guard with off := decide (op = .powerOff), queue := s.guard.queue ++ [op] }) ∧
        (7 ≤ s.guard.queue.length → exec c s = .next { s with guard := { s.guard with
          lastOp := guardCode op, lastStatus := stNoRes } }))) ∧
    (s.guard.off = false → guardAvailable s op = true → guardKnown s op = true → exec c s = .next s) ∧
    (s.guard.off = true → exec c s = .next { s with guard := { s.guard with
      lastOp := guardCode op, lastStatus := stNoRes } }) ∧
    (s.guard.off = false → guardAvailable s op = false → exec c s = .next { s with guard := { s.guard with
      lastOp := guardCode op, lastStatus := stFnDisabled } })
    ∀ p, takes (.freeze p) .freeze ∧ takes (.fenceAll p) .fenceAll ∧ takes (.hostFlush p) .hostFlush ∧
      takes (.dump p) .dump ∧ takes (.heathReset p) .heathReset ∧ takes (.zeroizeKeys p) .zeroizeKeys ∧
      takes (.zeroizePlates p) .zeroizePlates ∧ takes (.zeroizeDdr p) .zeroizeDdr ∧
      takes (.powerOff p) .powerOff)

/-- A guaranteed operation that completes shows its code with OK, and the next that waits starts; with ZEROIZE_DDR all of
DDR reads as zeros, and the host's accesses that waited are served (R463). A heath
whose controller does not answer a zeroing is power-cycled and, if it still fails, lost (R464, R466). The
model's own choices in it: log 13. -/
def Obligations.GuardOperationsComplete : Prop :=
  ∀ (s : State),
    (∀ op, s.guard.side = [] → s.guard.running = some op → s.guard.queue = [] →
      ∃ t, exec .guardOpComplete s = .next t ∧ (op ≠ .zeroizeDdr → { t with guard := s.guard } = s) ∧
        t.guard = { s.guard with running := none, lastOp := guardCode op, lastStatus := 0
                                 signalled := s.guard.signalled || decide (op = .powerOff) } ∧
        (op = .zeroizeDdr → t.hif.sharedWait = [] ∧ (s.hif.sharedWait = [] →
          { t with guard := s.guard, memory := s.memory, hif := s.hif } = s ∧
          { t.memory with ddr := s.memory.ddr, spares := s.memory.spares } = s.memory ∧
          (∀ a, memByte t.memory.ddr a = 0) ∧ t.memory.ddr.flips = [] ∧ t.hif.tracker = []))) ∧
    (∀ op next rest, s.guard.side = [] → s.guard.running = some op → s.guard.queue = next :: rest →
      guardAvailable s next = true →
      ∃ t, exec .guardOpComplete s = .next t ∧ t.guard.running = some next ∧ t.guard.queue = rest ∧
        t.guard.lastOp = guardCode op ∧ t.guard.lastStatus = 0) ∧
    (∀ op o rest, s.guard.side = op :: rest → s.guard.running = some o →
      ∃ t, exec .guardOpComplete s = .next t ∧ { t with guard := s.guard } = s ∧
        t.guard = { s.guard with side := rest, lastOp := guardCode op, lastStatus := 0 }) ∧
    (∀ h recovers, h < 48 → (s.guard.running = some .zeroizePlates ∨
        (s.guard.running = some .heathReset ∧ s.guard.arg.getLsbD h = true)) →
      ∃ t, exec (.heathControllerTimeout h recovers) s = .next t ∧
        (∀ v a, heathOf s v = h → memByte (coreAt t v).plate a = 0) ∧
        (recovers = true → { t with cores := s.cores, heaths := s.heaths, pwr := s.pwr } = s ∧
          t.pwr = { s.pwr with throttle := throttleNow s, throttleAt := s.tick.gtc } ∧
          (∀ v, heathOf s v ≠ h → coreAt t v = coreAt s v) ∧
          (∀ g, g ≠ h → heathAt t g = heathAt s g) ∧
          (let x := heathAt s h
           let y := { darkHeath x with on := x.on, runtime := x.mirror }
           heathAt t h = if progLive s then { y with map := x.map, healthy := x.healthy } else y)) ∧
        (recovers = false → (heathAt t h).state = .lost ∧ (heathAt t h).lossCause = 3 ∧
          t.die.lost.getLsbD h = true ∧ t.die.effGrade = 0xF))

/-! ### Links -/

/-- LINK_ENABLE trains a link that is OFF, LINK_DISABLE turns one off with all it holds dropped; FENCE makes a
hedge of a link in UP or QUARANTINE, waits in RETRAIN and behind a STOP, powers a hedge's lanes down where ELEC
asks, and else only notes its bit; clearing FENCE lets a hedge discover again, or train where its lanes are off; REDISCOVER runs discovery anew in QUARANTINE, or in UP with
no program loaded (R343, R344, R355, R373, R374). The model's own choices in it: logs 33 and 34. -/
def Obligations.LinkControl : Prop :=
  ∀ (s : State) (n : Nat), n < 36 →
    let l := linkAt s n
    (l.state = .off → s.die.d48 = true → ∃ t, exec (.linkEnable n) s = .next t ∧
      (linkAt t n).state = .training ∧ (linkAt t n).enable = true ∧ (linkAt t n).since = s.tick.gtc ∧
      RestKept s t ∧ t.tick = s.tick) ∧
    (l.state ≠ .off ∨ s.die.d48 = false → ∃ t, exec (.linkEnable n) s = .next t ∧ OnlyLink s t n ∧
      linkAt t n = { l with enable := true }) ∧
    (∃ t, exec (.linkDisable n) s = .next t ∧ (linkAt t n).enable = false ∧ Downs s t n .off 0) ∧
    (∀ elec,
      (l.state = .up ∧ l.prio.stop = none ∨ l.state = .quarantine → ∃ t, exec (.linkFence n elec) s = .next t ∧
        (linkAt t n).state = .fenced ∧ (linkAt t n).fence = true ∧ (linkAt t n).elec = elec ∧
        (linkAt t n).lanesOff = elec ∧ (linkAt t n).vcOper = 1 ∧ (loading s = none → RestKept s t) ∧
        ∀ v, v ≠ 0 → look [] (linkAt t n).queue v = [] ∧ look [] (linkAt t n).rx v = []) ∧
      (l.state = .retrain ∨ (l.state = .up ∧ l.prio.stop ≠ none) →
        ∃ t, exec (.linkFence n elec) s = .next t ∧ OnlyLink s t n ∧
          linkAt t n = { l with fence := true, elec := elec, fenceDue := true }) ∧
      (l.state = .fenced → ∃ t, exec (.linkFence n elec) s = .next t ∧ OnlyLink s t n ∧
        linkAt t n = { l with fence := true, elec := elec, lanesOff := l.lanesOff || elec }) ∧
      (l.state ≠ .up → l.state ≠ .quarantine → l.state ≠ .retrain → l.state ≠ .fenced →
        ∃ t, exec (.linkFence n elec) s = .next t ∧ OnlyLink s t n ∧
          linkAt t n = { l with fence := true, elec := elec })) ∧
    (l.state = .fenced → l.lanesOff = false → ∃ t, exec (.linkUnfence n) s = .next t ∧
      (linkAt t n).fence = false ∧ Discovers s t n) ∧
    (l.state = .fenced → l.lanesOff = true → ∃ t, exec (.linkUnfence n) s = .next t ∧
      (linkAt t n).fence = false ∧ (linkAt t n).state = .training ∧ RestKept s t) ∧
    (l.state ≠ .fenced → ∃ t, exec (.linkUnfence n) s = .next t ∧ OnlyLink s t n ∧
      linkAt t n = { l with fence := false, fenceDue := false }) ∧
    (l.state = .quarantine ∨ (l.state = .up ∧ progLive s = false) →
      (∃ t, exec (.linkRediscover n) s = .next t ∧ Discovers s t n) ∧
      (∃ t, exec (.rediscover n) s = .next t ∧ Discovers s t n)) ∧
    (l.state ≠ .quarantine → (l.state ≠ .up ∨ progLive s = true) →
      exec (.linkRediscover n) s = .next s ∧ exec (.rediscover n) s = .next s)

/-- Training ends in DISCOVERY with the delay measured and the spare in place, or DOWN on two failed lanes, on
too long a delay or at its time-out. A RECORD is answered with the verdict on it; two verdicts put the link UP
with the VCs of both, in QUARANTINE, or DOWN; discovery repeats what it sent and times out (R343, R346 to
R355). The model's own choices in it: logs 9 and 33. -/
def Obligations.TrainingAndDiscovery : Prop :=
  ∀ (s : State) (n : Nat), n < 36 →
    let l := linkAt s n
    (∀ failed delay, l.state = .training →
      (2 ≤ (lanesFailed failed).length → ∃ t, exec (.trainingComplete n failed delay) s = .next t ∧
        Downs s t n .down 2) ∧
      ((lanesFailed failed).length < 2 → 6400 < delay →
        ∃ t, exec (.trainingComplete n failed delay) s = .next t ∧ Downs s t n .down 3 ∧
          (linkAt t n).delay = delay) ∧
      ((lanesFailed failed).length < 2 → delay ≤ 6400 →
        ∃ t, exec (.trainingComplete n failed delay) s = .next t ∧ Discovers s t n ∧
          (linkAt t n).failed = failed ∧ (linkAt t n).spareFor = spareLane failed ∧
          (linkAt t n).delay = delay ∧ (linkAt t n).timer = 2 * ((delay + 15) / 16) + 128 ∧
          look 0 (linkAt t n).credits 0 = 64 ∧ (linkAt t n).nextSeq = 0 ∧ (linkAt t n).expect = 0)) ∧
    (l.state = .training → ∃ t, exec (.trainingTimeout n) s = .next t ∧ Downs s t n .down 1 ∧
      t.tick.gtc = (advance s (l.since + 2 ^ 26)).tick.gtc) ∧
    (l.state = .discovery → ∃ t, exec (.discoveryTimeout n) s = .next t ∧ Downs s t n .down 4 ∧
      t.tick.gtc = (advance s (l.since + 2 ^ 24)).tick.gtc) ∧
    (∀ r, l.state = .discovery → l.peerVerdict = none → ∃ t, exec (.record n r) s = .next t ∧ OnlyLink s t n ∧
      linkAt t n = { l with peer := some r, hasRec := true, verdict := some (verdictOf s n r)
                            msgs := (linkAt t n).msgs } ∧
      ∃ f, (linkAt t n).msgs = l.msgs ++ [f] ∧ f.linkmsg = true ∧
        f.data = leBytes 8 (2 + (verdictOf s n r).1 % 4 * 2 ^ 8 + (verdictOf s n r).2 % 16 * 2 ^ 12)) ∧
    (∀ r, l.state = .up ∨ l.state = .quarantine → ∃ t, exec (.record n r) s = .next t ∧
      (linkAt t n).state = .discovery ∧ (linkAt t n).peer = some r ∧ (linkAt t n).planNow = l.plan ∧
      (linkAt t n).verdict = some (verdictOf t n r) ∧ (linkAt t n).peerVerdict = none) ∧
    (∀ v r, l.state = .discovery → v < 3 →
      (l.verdict = none → ∃ t, exec (.linkVerdict n v r) s = .next t ∧ OnlyLink s t n ∧
        linkAt t n = { l with peerVerdict := some (v, r) }) ∧
      (∀ mine why, l.verdict = some (mine, why) → l.fence = false → mine < 3 →
        let reason := if mine < v then 8 else why
        (max mine v = 0 → ∃ t, exec (.linkVerdict n v r) s = .next t ∧ (linkAt t n).state = .up ∧
          (linkAt t n).reason = reason ∧ (linkAt t n).peerReason = r ∧ RestKept s t ∧
          (∀ p, l.peer = some p → (linkAt t n).vcOper = 3 ||| ((l.vcMask ||| 3) &&& p.vcMask))) ∧
        (max mine v = 1 → ∃ t, exec (.linkVerdict n v r) s = .next t ∧ (linkAt t n).state = .quarantine ∧
          (linkAt t n).reason = reason ∧ (linkAt t n).vcOper = 1 ∧ (progLive s = false → RestKept s t)) ∧
        (max mine v = 2 → ∃ t, exec (.linkVerdict n v r) s = .next t ∧ Downs s t n .down reason)) ∧
      (∀ mine why, l.verdict = some (mine, why) → l.fence = true → mine < 2 → v < 2 →
        ∃ t, exec (.linkVerdict n v r) s = .next t ∧ (linkAt t n).state = .fenced)) ∧
    (l.state = .discovery → (l.verdict = none ∨ l.peerVerdict = none) →
      ∃ t f, exec (.discoveryRepeat n) s = .next t ∧ { t with links := s.links, tick := s.tick } = s ∧
        t.tick = (advance s (repeatAt s l)).tick ∧
        linkAt t n = { l with msgs := l.msgs ++ [f] } ∧ f.linkmsg = true ∧
        (l.verdict = none → f.data = recordBytes (ownRecord s n)) ∧
        (∀ v r, l.verdict = some (v, r) → f.data = leBytes 8 (2 + v % 4 * 2 ^ 8 + r % 16 * 2 ^ 12)) ∧
        (∀ m, m ≠ n → linkAt t m = linkAt s m))

/-- A running link sends one flit a slot of its frame, which begins at a GTC of 64f: a waiting STOP before all, in
a free slot's place; the replay in progress; the flit that the slot's flow, a link message, VC0 or the round robin
gives; else IDLE. A flit whose buffer holds an uncorrectable word goes out with DISCARD. A received flit is bad,
accepted in its order, void, repeated or ahead of its turn; the timer starts a replay; a lost lane lock retrains the
link, and the retrain ends where it began, or DOWN (R341, R342, R357 to R372, R374, R376, R377). The model's own
choices in it: logs 9, 26 and 32. -/
def Obligations.FlitsSentAndReceived : Prop :=
  ∀ (s : State) (n : Nat), n < 36 →
    let l := linkAt s n
    let u := frameStep s n
    let k := linkAt u n
    ({ u with links := s.links, tick := s.tick } = s ∧ (∀ m, m ≠ n → linkAt u m = linkAt s m) ∧
      { k with frame := l.frame, slotNo := l.slotNo, displaced := l.displaced } = l ∧
      (k.frame, k.slotNo, k.displaced) =
        (let f := s.tick.gtc / 64
         let runsOn : Prop := 5 < l.displaced ∧ l.slotNo < 120 ∧
           s.tick.gtc ≤ 64 * l.frame + 64 * (120 + l.displaced) / 125
         if 125 - min 5 l.displaced ≤ l.slotNo then
           (max f (l.frame + 1), 0, l.displaced - 5 * (max f (l.frame + 1) - l.frame))
         else if l.frame < f ∧ ¬ runsOn then (f, 0, l.displaced - 5 * (f - l.frame))
         else (l.frame, l.slotNo, l.displaced)) ∧
      (s.tick.running = true → 64 * k.frame ≤ u.tick.gtc)) ∧
    (linkRuns l = true →
      (∀ p c, l.state = .up → l.prio.stop = some (p, c) →
        (l.fenceDue = false → ∃ t, exec (.flitSlotTransmit n) s = .next t ∧ OnlyLink u t n ∧
          (linkAt t n).slotNo = k.slotNo ∧ (linkAt t n).displaced = k.displaced + 1 ∧
          (linkAt t n).replay = l.replay ∧
          (linkAt t n).prio = { l.prio with stop := if 1 < c then some (p, c - 1) else none } ∧
          (linkAt t n).wire = some (wireFlit l { kind := 5, words := 4, pkey := p.pkey, data := prioBytes 2 p } 0)) ∧
        (l.fenceDue = true → c ≤ 1 → ∃ t, exec (.flitSlotTransmit n) s = .next t ∧
          (linkAt t n).state = .fenced)) ∧
      ((l.state ≠ .up ∨ nextPrio u k = none) →
        (∀ seq b f c, l.replaying = some (seq, b) → replayEntry l seq = some (seq, f, c) →
          ∃ t, exec (.flitSlotTransmit n) s = .next t ∧ (linkAt t n).wire = some (wireFlit l f seq) ∧
            (linkAt t n).replay = l.replay ∧ (linkAt t n).slotNo = k.slotNo + 1 ∧
            (linkAt t n).resent = min (l.resent + 1) (2 ^ 32 - 1) ∧
            { t with links := u.links, fab := s.fab } = u) ∧
        (∀ f x, l.replaying = none → pickFlit u n k = some (f, x) → f.linkmsg = false →
          ∃ t, exec (.flitSlotTransmit n) s = .next t ∧ (linkAt t n).slotNo = k.slotNo + 1 ∧
            (linkAt t n).nextSeq = (x.nextSeq + 1) % 2 ^ 20 ∧ (flitBad f = false → (linkAt t n).queue = x.queue) ∧
            (∃ g, g = { takenFlit f with shared := g.shared } ∧ (flitBad f = true → g.discard = true) ∧
              (linkAt t n).replay = x.replay ++ [(x.nextSeq, g, 0)]) ∧
            { t with links := u.links, fab := s.fab } = u) ∧
        (∀ f x, l.replaying = none → pickFlit u n k = some (f, x) → f.linkmsg = true →
          ∃ t, exec (.flitSlotTransmit n) s = .next t ∧ { t with links := u.links, fab := s.fab } = u ∧
            (linkAt t n).slotNo = x.slotNo + 1 ∧ (linkAt t n).wire = some (wireFlit x f 0) ∧
            (linkAt t n).replay = x.replay ∧ (linkAt t n).msgs = x.msgs ∧
            look 0 (look {} t.fab.cong n).sent f.vc = look 0 (look {} s.fab.cong n).sent f.vc + 1) ∧
        (l.replaying = none → pickFlit u n k = none →
          ∃ t, exec (.flitSlotTransmit n) s = .next t ∧ OnlyLink u t n ∧
            (linkAt t n).wire = some (wireFlit l { kind := 0, words := 0 } 0) ∧
            (linkAt t n).slotNo = k.slotNo + 1 ∧ (linkAt t n).replay = l.replay ∧
            (linkAt t n).queue = l.queue)) ∧
      (∀ slot f corrected bad,
        let h := f.header.toNat
        let tr := f.trailer.toNat
        let seq := bits tr 19 0
        let vc := bits h 6 4
        let takes := fun (t : State) => exec (.flitReceive n slot ⟨f, corrected, bad⟩) s = .next t ∧
          (linkAt t n).fecCorr = min (l.fecCorr + corrected) 65535 ∧
          (linkAt t n).fecBad = min (l.fecBad + bad) 65535
        (goodFlit l f = false → ∃ t, takes t ∧ { t with links := s.links, fab := s.fab } = s ∧
          (linkAt t n).bad = min (l.bad + 1) 65535 ∧ (linkAt t n).nak = true ∧
          (linkAt t n).naks = (if l.nak then l.naks else min (l.naks + 1) 65535) ∧
          (linkAt t n).expect = l.expect ∧ (linkAt t n).rx = l.rx ∧ (linkAt t n).replay = l.replay) ∧
        (goodFlit l f = true → bit tr 40 = false →
          (bits h 10 8 = 0 → ∃ t, takes t ∧ OnlyLink s t n ∧
            (linkAt t n).expect = l.expect ∧ (linkAt t n).rx = l.rx ∧
            (linkAt t n).replay = l.replay.filter fun p => !decide (seqAhead (bits tr 39 20) p.1 < 2 ^ 19)) ∧
          (bits h 10 8 = 6 → bit h 12 = false → seq = l.expect → ∃ t, takes t ∧ OnlyLink s t n ∧
            (linkAt t n).expect = (l.expect + 1) % 2 ^ 20 ∧ (linkAt t n).pool = l.pool ∧
            (linkAt t n).rx = l.rx) ∧
          (1 ≤ bits h 10 8 → bits h 10 8 ≤ 4 → bit h 12 = false →
            (seq = l.expect → takesVc l vc = true → foreignKey s vc (bits h 39 24) = false →
              ∃ t, takes t ∧ { t with links := s.links, fab := s.fab } = s ∧
                (linkAt t n).expect = (l.expect + 1) % 2 ^ 20 ∧ (linkAt t n).nak = false ∧
                (linkAt t n).pool = l.pool - 1 ∧
                look [] (linkAt t n).rx vc = look [] l.rx vc ++ [flitOf f slot]) ∧
            (seq ≠ l.expect → seqAhead l.expect seq ≤ 2 ^ 19 →
              ∃ t, takes t ∧ OnlyLink s t n ∧ (linkAt t n).rx = l.rx ∧
                (linkAt t n).dup = min (l.dup + 1) 65535 ∧ (linkAt t n).expect = l.expect) ∧
            (2 ^ 19 < seqAhead l.expect seq → ∃ t, takes t ∧ OnlyLink s t n ∧ (linkAt t n).rx = l.rx ∧
              (linkAt t n).nak = true ∧ (linkAt t n).expect = l.expect)))) ∧
      (∀ seq f k rest, l.replay = (seq, f, k) :: rest → k < max 1 l.nReplay →
        ∃ t, exec (.replayTimerExpiry n) s = .next t ∧ { t with links := s.links, tick := s.tick } = s ∧
          (linkAt t n).replaying = some (seq, .timer) ∧ (linkAt t n).nakFrom = none ∧
          (linkAt t n).replay.head? = some (seq, f, k + 1))) ∧
    (∀ lane, lane < 9 → (l.state = .up ∨ l.state = .quarantine ∨ (l.state = .fenced ∧ l.lanesOff = false)) →
      ((recentRetrains s l).length + 1 ≤ max 1 l.mRetrain → ∃ t, exec (.laneLockLoss n lane) s = .next t ∧
        (linkAt t n).state = .retrain ∧ (linkAt t n).before = l.state ∧ (loading s = none → RestKept s t) ∧
        (linkAt t n).retrains = min (l.retrains + 1) 65535) ∧
      (max 1 l.mRetrain < (recentRetrains s l).length + 1 →
        ∃ t, exec (.laneLockLoss n lane) s = .next t ∧ Downs s t n .down 9)) ∧
    (l.state = .retrain →
      (l.fenceDue = false → (l.before = .fenced → l.fence = true) →
        ∃ t, exec (.retrainComplete n (.resumed none)) s = .next t ∧
          (linkAt t n).state = l.before ∧ RestKept s t ∧
          (linkAt t n).replay = l.replay.map (fun p => (p.1, p.2.1, 0)) ∧
          (linkAt t n).replaying = l.replay.head?.map (fun p => (p.1, ReplayBy.resume))) ∧
      (l.before = .fenced → l.fence = true → ∃ t, exec (.retrainComplete n (.resumed none)) s = .next t ∧
        (linkAt t n).state = .fenced ∧ (linkAt t n).lanesOff = (l.lanesOff || (l.fenceDue && l.elec)) ∧
        RestKept s t) ∧
      (l.before = .fenced → l.fence = false → ∃ t, exec (.retrainComplete n (.resumed none)) s = .next t ∧
        Discovers s t n) ∧
      (l.before ≠ .fenced → l.fenceDue = true → l.prio.stop = none →
        ∃ t, exec (.retrainComplete n (.resumed none)) s = .next t ∧ (linkAt t n).state = .fenced) ∧
      (∀ lane l', spareFor l lane = some l' → l.fenceDue = false → (l.before = .fenced → l.fence = true) →
        ∃ t, exec (.retrainComplete n (.resumed (some lane))) s = .next t ∧ (linkAt t n).state = l.before ∧
          (linkAt t n).failed = l'.failed ∧ (linkAt t n).spareFor = l'.spareFor ∧ RestKept s t) ∧
      (∀ lane, l.spareFor ≠ 0xF → ∃ t, exec (.retrainComplete n (.resumed (some lane))) s = .next t ∧
        Downs s t n .down 2 ∧ (lane < 9 → (linkAt t n).failed.getLsbD lane = true)) ∧
      (∃ t, exec (.retrainComplete n .failed) s = .next t ∧ Downs s t n .down 0xA)) ∧
    (∀ e, e < 6 → n ∈ engineLinks e → ∃ t, exec (.portEngineFault e) s = .next t ∧
      t.fab.engFault.getLsbD e = true ∧ Downs s t n .down 0xB)

/-! ### Packets -/

/-- A packet with a foreign key, or of another version or for another device, is dropped and counted. DATA
gathers until its last packet and then goes on the mesh; a READ_REQ is answered with the bytes, a WRITE_REQ
writes its bytes, whatever WP guards against core DMA, and is acknowledged, one that the regions refuse, or that meets
a device memory still to be zeroed, is answered with its status; a response
settles its tag, and a load whose request failed fails, or comes late; WINDOW frees space; a contribution, of this
device or in packets of another, is kept until all are there, and the result then goes to its group, its engine's
SAT set where it saturated (R285, R289, R318, R383 to R392, R395, R463). The model's own choices in it: logs 30,
31, 35 and 86, and the status of a refused access (log 13). -/
def Obligations.PacketsArrive : Prop :=
  ∀ (s : State),
    (∀ p c, c ∈ packetCommands p →
      (foreignKey s p.vc p.pkey = true → exec c s = .next { s with fab := { s.fab with
        foreign := min (s.fab.foreign + 1) 65535, congForeign := min (s.fab.congForeign + 1) 65535 } }) ∧
      (foreignKey s p.vc p.pkey = false → (p.version ≠ 1 ∨ p.dst ≠ s.fab.id ∨ p.discard = true) →
        exec c s = .next { s with fab := { s.fab with dropRoute := min (s.fab.dropRoute + 1) 65535 } })) ∧
    (∀ p, Arrives s p → p.vx ≠ 0x3F →
      let bs := look [] s.fab.frags (fragKey p) ++ p.data
      let ws := look [] s.fab.fragWins (fragKey p) ++ (if p.vc = 1 then [] else [(p.vc, p.len)])
      (p.lastPkt = false → ∃ t, exec (.data p) s = .next t ∧ { t with fab := s.fab } = s ∧
        look [] t.fab.frags (fragKey p) = bs ∧ look [] t.fab.fragWins (fragKey p) = ws ∧
        ∀ k, k ≠ fragKey p → look [] t.fab.frags k = look [] s.fab.frags k) ∧
      (∀ v, p.lastPkt = true → coreOfXY s p.vx p.vy = some v →
        ∃ t, exec (.data p) s = .next t ∧ { t with fab := s.fab, transit := s.transit } = s ∧
          look [] t.fab.frags (fragKey p) = [] ∧ t.transit = s.transit ++
            [{ dst := v, slot := p.slot, src := .device p.src, len := bs.length / 64, data := bs, wins := ws }])) ∧
    (∀ p, Arrives s p →
      (∀ e, checkDev s.memory p.addr p.len false = some e →
        exec (.readReq p) s = .next (answerPacket s { p with ptype := 2 } 3 (accessStatus e) [])) ∧
      (checkDev s.memory p.addr p.len false = none → ddrHeld s = false → p.addr + p.len ≤ shareLo →
        badWords s.memory.ddr p.addr p.len = [] → correctedWords s.memory.ddr p.addr p.len = [] →
        exec (.readReq p) s =
          .next (answerPacket s { p with ptype := 2 } 3 0 (memGet s.memory.ddr p.addr p.len))) ∧
      (checkDev s.memory p.addr p.len false = none → ddrHeld s = true → p.addr < ddrEnd →
        exec (.readReq p) s = .next (answerPacket s { p with ptype := 2 } 3 1 [])) ∧
      (∀ e, checkDev (withoutWp s.memory) p.addr p.data.length true = some e → exec (.writeReq p) s =
        .next (answerPacket (if p.vc = 1 then s else sendWindows s p.src [(p.vc, p.len)]) { p with ptype := 4 } 5
          (accessStatus e) [])) ∧
      (checkDev (withoutWp s.memory) p.addr p.data.length true = none → ddrHeld s = true → p.addr < ddrEnd →
        exec (.writeReq p) s = .next (answerPacket (if p.vc = 1 then s else sendWindows s p.src [(p.vc, p.len)])
          { p with ptype := 4 } 5 1 [])) ∧
      (checkDev (withoutWp s.memory) p.addr p.data.length true = none → ddrHeld s = false →
        p.addr + p.data.length ≤ shareLo → badWords s.memory.ddr p.addr p.data.length = [] →
        ∃ u, { u with memory := { u.memory with ddr := s.memory.ddr } } = s ∧
          (∀ k, k < p.data.length → memByte u.memory.ddr (p.addr + k) = p.data.getD k 0) ∧
          (∀ a, a < p.addr ∨ p.addr + p.data.length ≤ a → memByte u.memory.ddr a = memByte s.memory.ddr a) ∧
          exec (.writeReq p) s = .next (answerPacket
            (if p.vc = 1 then u else sendWindows u p.src [(p.vc, p.len)]) { p with ptype := 4 } 5 0 [])) ∧
      (∀ c, c = .readResp p ∨ c = .writeAck p →
        let x := tagAt s p.tag
        (x.busy = true → x.epoch = p.epoch → s.fab.reqWait = [] →
          (loading s = none ∨ (p.status = 0 ∧ failedReq s = none)) →
          ∃ t, exec c s = .next t ∧ { t with fab := s.fab } = s ∧
            tagAt t p.tag = { x with busy := false, result := some p.status, data := p.data } ∧
            ∀ k, k ≠ p.tag → tagAt t k = tagAt s k) ∧
        (∀ o, x.busy = true → x.epoch = p.epoch → x.load = true → p.status ≠ 0 → loading s = some o →
          ∃ t, exec c s = .next t ∧ LoadFailed t o) ∧
        (x.busy = false ∨ x.epoch ≠ p.epoch → exec c s = .next { s with fab := { s.fab with
          lateResp := min (s.fab.lateResp + 1) 65535 } })) ∧
      (s.fab.waiting = [] → ∃ t, exec (.window p) s = .next t ∧ { t with fab := s.fab } = s ∧
        look 0 t.fab.used (windowKey p.src (p.slot % 8)) =
          look 0 s.fab.used (windowKey p.src (p.slot % 8)) - p.len ∧
        ∀ k, k ≠ windowKey p.src (p.slot % 8) → look 0 t.fab.used k = look 0 s.fab.used k)) ∧
    (∀ p c r, Arrives s p → p.vx = 0x3F → p.vc ≠ 1 → p.lastPkt = true → p.src ≠ s.fab.id →
      collOf s p.slot = some c → collSource s c p.src = some r → collReceives s c = true →
      r < max 1 (collSize s c) →
      let bytes := look [] s.fab.frags (fragKey p) ++ p.data
      bytes.length = contribBytes c → (∃ q, q ∈ collNeeds s c ∧ q ≠ r ∧ contribOf s c q = none) →
      ∃ t, exec (.data p) s = .next t ∧ contribOf t c r = some bytes ∧ look [] t.fab.frags (fragKey p) = [] ∧
        t.transit = s.transit ∧ RestKept s t) ∧
    (∀ c rank bytes, collOf s c.id = some c → rank < max 1 (collSize s c) → bytes.length = contribBytes c →
      ((∃ r, r ∈ collNeeds s c ∧ r ≠ rank ∧ contribOf s c r = none) →
        ∃ t, exec (.coll c.id rank bytes) s = .next t ∧ contribOf t c rank = some bytes ∧
          t.transit = s.transit ∧ RestKept s t) ∧
      (∀ g, (∀ r, r ∈ collNeeds s c → r = rank ∨ (contribOf s c r).isSome = true) → collNeeds s c ≠ [] →
        c.op = 0 → c.combine ≤ 2 → s.prog.groups[c.deliverGroup]? = some g →
        let l := (collNeeds s c).map fun r => if r = rank then bytes else (contribOf s c r).getD []
        let bs := padUnit (collReduce c l.length l)
        ∃ t, exec (.coll c.id rank bytes) s = .next t ∧ look [] t.fab.coll c.id = [] ∧ RestKept s t ∧
          t.fab.collSat = s.fab.collSat ||| (if collSaturates c l then BitVec.ofNat 4 (2 ^ (c.engine % 4)) else 0) ∧
          t.transit = s.transit ++ ((List.range s.prog.cores).filter fun u => g.getLsbD u).map (fun u =>
            { dst := u, slot := c.deliverSlot % 4096, src := .engine c.engine, len := bs.length / 64, data := bs })))

/-- The packet at the head of a receive queue leaves it with its buffers freed and goes to the next hop's
queue, or is dropped and counted; a request that waits too long completes with TIMEOUT and its tag's epoch
goes up; a congestion map is latched each 2^20 ticks and sent to the collector, which writes the maps that it
receives to its ring (R386, R387, R390, R393, R403). The model's own choices in it: log 35 (a packet of a version
other than 1 is dropped and counted in ROUTE), log 36 (what is sent is noted in mgmtOut), logs 9 and 73. -/
def Obligations.PacketsForwardedAndTimed : Prop :=
  ∀ (s : State),
    (∀ n vc fs rest m, n < 36 → vc < 8 → vc ≠ 1 → headPacket (look [] (linkAt s n).rx vc) = some (fs, rest) →
      let p := packetOf vc (fs.headD {}).pkey (fs.flatMap (·.data))
      let q := stageAt s.fab.id p
      ((fs.any (·.discard)) = false → p.version = 1 → nextHop (commonOf s) s.fab.id q = .link m →
        passesOn (linkAt s m) vc = true →
        ∃ t, exec (.packetForward n vc) s = .next t ∧ { t with links := s.links } = s ∧
          look [] (linkAt t n).rx vc = rest ∧
          look [] (linkAt t m).queue vc =
            look [] (linkAt s m).queue vc ++ (withHeader fs q).map (fun f => { f with isOwn := false }) ∧
          ∀ k, k ≠ n → k ≠ m → linkAt t k = linkAt s k) ∧
      ((fs.any (·.discard)) = true ∨ p.version ≠ 1 ∨ nextHop (commonOf s) s.fab.id q = .lost ∨
          (∃ m, nextHop (commonOf s) s.fab.id q = .link m ∧ passesOn (linkAt s m) vc = false) →
        ∃ t, exec (.packetForward n vc) s = .next t ∧ { t with links := s.links, fab := s.fab } = s ∧
          look [] (linkAt t n).rx vc = rest ∧ t.fab.dropRoute = min (s.fab.dropRoute + 1) 65535)) ∧
    (∀ tag, (tagAt s tag).busy = true → s.fab.reqWait = [] → ((tagAt s tag).load = false ∧ failedReq s = none ∨
        loading s = none) → ∃ t, exec (.requestTimeout tag) s = .next t ∧
      { t with fab := s.fab, tick := s.tick } = s ∧
      t.tick = (advance s ((tagAt s tag).since + 2 ^ s.fab.timeout)).tick ∧
      tagAt t tag = { tagAt s tag with busy := false, epoch := ((tagAt s tag).epoch + 1) % 256
                                       result := some stTimeout, data := [] } ∧
      ∀ k, k ≠ tag → tagAt t k = tagAt s k) ∧
    (∀ tag o, (tagAt s tag).busy = true → (tagAt s tag).load = true → loading s = some o →
      ∃ t, exec (.requestTimeout tag) s = .next t ∧ LoadFailed t o) ∧
    (s.fab.congEn = true → s.tick.running = true →
      let n := s.fab.score - s.fab.score / 8
      ∃ t, exec .congestionMapLatch s = .next t ∧
        { t with fab := s.fab, links := s.links, host := s.host, tick := s.tick } = s ∧
        t.tick = (advance s (2 ^ 20 * nextMap s)).tick ∧ t.fab.mapNo = nextMap s ∧
        (s.fab.collector = 0xFFFFFF ∨ s.fab.collector = s.fab.id → t.fab.cong = []) ∧ t.fab.congHolds = 0 ∧ t.fab.congForeign = 0 ∧ t.fab.minMargin = none ∧ t.fab.score = n ∧
        t.fab.suspect = (s.fab.suspect && !decide (2 * n < max 1 s.fab.thresh)) ∧
        (s.fab.collector ≠ s.fab.id → t.host = s.host) ∧
        (s.fab.collector ≠ 0xFFFFFF → s.fab.collector ≠ s.fab.id → t.fab.mgmtOut =
          { dst := s.fab.collector, mtype := mtCongMap
            bytes := mapRecord (advance s (2 ^ 20 * nextMap s)) (nextMap s) } :: s.fab.mgmtOut)) ∧
    (∀ a map, Accepts s .any a → s.fab.collector = s.fab.id → map.length = 1344 → 0 < s.fab.ringSize →
      let at_ := s.fab.ringBase * 4096 + 1344 * (s.fab.ringPos % (s.fab.ringSize * 4096 / 1344))
      ∃ t, exec (.congMap a map) s = .next t ∧ { t with stl := s.stl, fab := s.fab, host := s.host } = s ∧
        t.fab = { s.fab with ringPos := s.fab.ringPos + 1 } ∧
        (∀ k, k < 1344 → memByte t.host (at_ + k) = map.getD k 0) ∧
        ∀ x, x < at_ ∨ at_ + 1344 ≤ x → memByte t.host x = memByte s.host x)

/-! ### The fabric manager -/

/-- A management message that fails its checks is dropped and counted, one of another header version is answered
VERSION_MISMATCH, and a stile that does not run takes none; what the device sends goes on VC0. PLAN_WRITE fills plan
memory; a PLAN_COMMIT that every check passes puts the plan in force with the plates zeroed, one that fails answers
its status; TEARDOWN ends the program, empties the slots, fences the links and has the guard zero plates and device
memory, and at its completion, not before the stores are zeroed, the device is UNASSIGNED; UNFENCE tears a fenced device
down, and its links are unfenced (R7, R381, R382, R394, R395, R400, R402, R445, R464). The model's own choices in it:
that UNFENCE of a device that is neither fenced nor left with fenced links answers NO_RESOURCES, and the partition state
kept (log 39); the answer VERSION_MISMATCH, and MALFORMED for reserved values, are in part log 91's; logs 36, 37, 38
and 79. -/
def Obligations.PlansAndTeardown : Prop :=
  ∀ (s : State),
    (∀ c k a, mgmtAuth c = some (k, a) → (s.stl.state ≠ 1 → exec c s = .next s) ∧
      (s.stl.state = 1 → authOk s k a = false →
        exec c s = .next { s with fab := { s.fab with badMgmt := min (s.fab.badMgmt + 1) 65535 } }) ∧
      (s.stl.state = 1 → authOk s k a = true → a.mver ≠ 1 →
        exec c s = .next (sendMgmt (noteSeq s a) (told a mtResponse stVersion)))) ∧
    (∀ m, let goes : Prop := ((m.mtype = mtResponse ∨ m.mtype = mtLaunchAnswer) → s.stl.state = 1) ∧
        (2 ≤ m.session → keyHeld s m.session = true)
      (goes → Sent s (sendMgmt s m) m) ∧ (¬ goes → sendMgmt s m = s)) ∧
    (∀ a, Accepts s .manager a →
      let u := noteSeq s a
      (∀ part,
        let r := writePart s.fab.common s.fab.device part
        exec (.planWrite a part) s = .next (sendMgmt
          { u with fab := { s.fab with common := r.2.1, device := r.2.2 } } (told a mtResponse r.1)) ∧
        (∀ h, part = .header h → r.1 = stOK ∧ r.2.1 = { s.fab.common with header := h }) ∧
        (∀ i f, part = .flow i f → i < 4096 → r.1 = stOK ∧ look 0 r.2.2.flows i = f) ∧
        (∀ n i e, part = .txSlot n i e → n < 36 → i < 120 → r.1 = stOK ∧ look 0 r.2.2.tx (120 * n + i) = e) ∧
        (∀ n i e, part = .rxSlot n i e → n < 36 → i < 120 → r.1 = stOK ∧ look 0 r.2.2.rx (120 * n + i) = e)) ∧
      (∀ digest key,
        (∀ e, commitRefusal s digest = some e →
          exec (.planCommit a digest key) s = .next (sendMgmt u (told a mtResponse e))) ∧
        (commitRefusal s digest = none → ∃ v,
          exec (.planCommit a digest key) s = .next (sendMgmt v (told a mtResponse stOK)) ∧
          v.fab.plan = some (s.fab.common, s.fab.device) ∧ v.fab.part = .assigned ∧
          v.fab.pkey = s.fab.common.header.pkey ∧ v.fab.size = s.fab.common.header.n ∧
          v.fab.coord = s.fab.common.header.coord ∧ v.fab.partKey = some key ∧ v.fab.planDig = digest ∧
          s.fab.common.ranks[v.fab.rank]? = some s.fab.id ∧
          v.tick.master = (s.fab.device.master && s.lcf.eligible) ∧ v.tick.uplink = s.fab.device.uplink ∧
          v.tick.sync = (if s.fab.device.uplink = 0x7F then .unsync else .acquiring) ∧
          (∀ n e, s.fab.device.links[n]? = some e → (linkAt v n).plan = e) ∧
          (∀ n, coreAt v n = zeroCore (coreAt s n)) ∧ v.memory = s.memory ∧
          (loading s = none → v.load = s.load ∧ v.fab.mgmtOut = s.fab.mgmtOut))) ∧
      (∀ c, (c = .teardown a ∨ (c = .unfence a ∧ s.fab.part = .fenced)) →
        (s.fab.part = .assigned ∨ s.fab.part = .fenced) → s.tick.launched = false →
        ∃ t, exec c s = .next t ∧ t.fab.part = .teardown ∧ progHeld t = false ∧
          (∀ n, n < 36 → (linkAt t n).fence = true) ∧ (∀ n, (slotAt t n).state = .empty) ∧
          t.load.adapters = [] ∧ t.load.cur = none ∧ t.load.queue = [] ∧ t.srv.books = {} ∧
          t.proofs.store = [] ∧ t.fab.waitMgmt = [(a.sender, a.session)] ∧
          (c = .unfence a → t.fab.unfencing = true) ∧
          (s.guard.off = false → s.die.d48 = true → s.guard.queue.length ≤ 5 →
            guardKnown t .zeroizePlates = true ∧ guardKnown t .zeroizeDdr = true) ∧
          (s.guard.off = false → s.die.d48 = true → s.guard.running = none → s.guard.side = [] →
            s.guard.queue = [] → t.guard.running = some .zeroizePlates ∧ t.guard.queue = [.zeroizeDdr] ∧
            ∀ v x, memByte (coreAt t v).plate x = 0)) ∧
      (¬ ((s.fab.part = .assigned ∨ s.fab.part = .fenced) ∧ s.tick.launched = false) →
        exec (.teardown a) s = .next (sendMgmt u (told a mtResponse stNoRes))) ∧
      (∀ n, s.fab.part = .unassigned → n < 36 → (linkAt s n).fence = true →
        ∃ v, exec (.unfence a) s = .next (sendMgmt v (told a mtResponse stOK)) ∧
          ∀ m, m < 36 → (linkAt v m).fence = false) ∧
      (¬ (s.fab.part = .fenced ∧ s.tick.launched = false) →
        (s.fab.part ≠ .unassigned ∨ ∀ n, n < 36 → (linkAt s n).fence = false) →
        exec (.unfence a) s = .next (sendMgmt u (told a mtResponse stNoRes)))) ∧
    (s.fab.part = .teardown → guardKnown s .zeroizePlates = false → guardKnown s .zeroizeDdr = false →
      ∃ t, exec .teardownComplete s = .next t ∧
      { t with fab := s.fab, stl := s.stl, links := s.links } = s ∧ t.fab.part = .unassigned ∧
      t.fab.plan = none ∧ t.fab.partKey = none ∧ t.fab.pairKey = none ∧ t.fab.pkey = 0 ∧ t.fab.planDig = 0 ∧
      t.fab.waitMgmt = [] ∧ t.fab.unfencing = false ∧
      (s.fab.unfencing = true → ∀ n, n < 36 → (linkAt t n).fence = false) ∧
      (s.stl.state = 1 → (∀ p ∈ s.fab.waitMgmt, 2 ≤ p.2 → keyHeld s p.2 = true) →
        t.fab.mgmtOut = (s.fab.waitMgmt.map fun p =>
          { dst := p.1, mtype := mtResponse, session := p.2, a := stOK }).reverse ++ s.fab.mgmtOut)) ∧
    (s.fab.part ≠ .teardown ∨ guardKnown s .zeroizePlates = true ∨ guardKnown s .zeroizeDdr = true →
      exec .teardownComplete s = .next s)

/-- FENCE_PORTS and FENCE_DEVICE take effect at once where no program that needs the links runs, and else wait
for the stop point, where the program stops; an abort given up before the launch ends the program, and one of
a running program waits; the coordinator's RESPONSE settles what was forwarded, no reserved status among what is
passed on; REG_READ and REG_WRITE are register accesses, but for what they do not reach (R9, R394, R397, R399,
R400, R493). The model's own choices in it: that a reserved status is passed on as MALFORMED (log 91: R9 says only that
the device never writes one), the RESPONSEs that wait for a stop point or for the coordinator (log 38), and logs 36, 39
and 47. -/
def Obligations.ManagementCommands : Prop :=
  ∀ (s : State),
    (∀ a, Accepts s .manager a →
      let u := noteSeq s a
      let waits := fun (t : State) => { t with stl := s.stl, fab := s.fab, prog := s.prog } = s ∧
        t.fab = { s.fab with waitMgmt := s.fab.waitMgmt ++ [(a.sender, a.session)] }
      (∀ links elec, s.tick.launched = false ∨ (linksOf links).any (carriesSched s) = false →
        ∃ v, exec (.fencePorts a links elec) s = .next (sendMgmt v (told a mtResponse stOK)) ∧
          (loading s = none → RestKept s v) ∧
          ∀ n, n < 36 → links.getLsbD n = true → (linkAt v n).fence = true ∧ (linkAt v n).elec = elec) ∧
      (∀ links elec, s.tick.launched = true → (linksOf links).any (carriesSched s) = true →
        ∃ t, exec (.fencePorts a links elec) s = .next t ∧ waits t ∧
          t.prog = { s.prog with fencePorts := s.prog.fencePorts ||| links
                                 fenceElec := s.prog.fenceElec ||| (if elec then links else 0) }) ∧
      (s.fab.part = .teardown ∨ s.fab.part = .fenced → exec (.fenceDevice a) s = .next
        (sendMgmt { u with fab := { s.fab with unfencing := false } } (told a mtResponse stOK))) ∧
      (s.fab.part ≠ .teardown → s.fab.part ≠ .fenced → s.tick.launched = false →
        ∃ v, exec (.fenceDevice a) s = .next (sendMgmt v (told a mtResponse stOK)) ∧ v.fab.part = .fenced ∧
          (∀ n, n < 36 → (linkAt v n).fence = true) ∧ (s.prog.phase = .due → v.prog.phase = .done) ∧
          (s.prog.phase ≠ .due → loading s = none → RestKept s v)) ∧
      (s.fab.part ≠ .teardown → s.fab.part ≠ .fenced → s.tick.launched = true →
        ∃ t, exec (.fenceDevice a) s = .next t ∧ waits t ∧ t.prog = { s.prog with fencing := true }) ∧
      (∀ off size v,
        (unreachable off = true →
          exec (.regRead a off size) s = .next (sendMgmt u (told a mtResponse stMalformed)) ∧
          exec (.regWrite a off size v) s = .next (sendMgmt u (told a mtResponse stMalformed))) ∧
        (unreachable off = false →
          exec (.regRead a off size) s = .next (sendMgmt (readReg u off size).1
            { told a mtResponse stOK with bytes := leBytes size (readReg u off size).2 }) ∧
          ∃ x, exec (.registerWrite ⟨0, off⟩ size v) u = .next x ∧
            exec (.regWrite a off size v) s = .next (sendMgmt x (told a mtResponse stOK))))) ∧
    (s.tick.launched = true → s.tick.stopDue = true → progLive s = true →
      ∃ t, exec .stopPoint s = .next t ∧ t.prog.phase = .done ∧ t.tick.launched = false ∧
        (s.tick.stop.valid = false → t.tick.stop.cause = if s.prog.abort.isSome then 0xA else 0x9) ∧
        (s.prog.fencing = true → t.fab.part = .fenced ∧ t.fab.waitMgmt = [] ∧
          ∀ n, n < 36 → (linkAt t n).fence = true)) ∧
    (s.tick.launched = false → s.prog.fencing = false → s.prog.fencePorts = 0 →
      exec .stopPoint s = .next s) ∧
    (∀ a, Accepts s .member a → isCoord s = true → s.prog.abort = none → progHeld s = true →
      (s.tick.launched = false → ¬ (s.prog.phase = .due ∧ s.prog.l1 ≤ s.tick.gtc + 8192) →
        ∃ t, exec (.abort a) s = .next t ∧ t.prog.phase = .done ∧ t.cores = s.cores ∧ t.memory = s.memory) ∧
      (s.tick.launched = true → ∃ t, exec (.abort a) s = .next t ∧ { t with stl := s.stl, prog := s.prog } = s ∧
        t.prog = { s.prog with abort := some { op := 0x12, tag := dw a.sender } })) ∧
    (∀ a w status, Accepts s .any a → s.fab.abortFor = some w → a.sender = s.fab.coord →
      exec (.response a status) s = .next (answerStatus
        { noteSeq s a with fab := { s.fab with abortFor := none } } w
        (if status ≤ 0x12 then status else stMalformed)))

/-! ### Loads -/

/-- A member's READY is held, with its BASE, until every member's is, and the load starts; its time-out fails the load,
and so does a range past the image. A near leaf, of the own share from the host's memory or from another member, is
written in place, hashed and sent on; another member's may come before this one starts, and is sent on at the start; a
far leaf is hashed from the host's memory; a leaf that cannot be read fails the load.
The last leaf of a device's own load decides it by its root; a failure verdict ends it, and with every verdict OK it
completes. Another member's hashes are held, DRAINED is noted, and a member takes its step's manifest (R283, R286,
R287, R289, R291, R294, R306, R308). The model's own choices in it: logs 9, 36, 62 and 86. -/
def Obligations.LoadMembersAgree : Prop :=
  ∀ (s : State),
    (∀ a m, Accepts s .member a →
      (s.load.cur = none → ∃ t, exec (.ready a m) s = .next t ∧
        { t with stl := s.stl, load := s.load } = s ∧
        t.load = { s.load with readies := t.load.readies, bases := t.load.bases } ∧
        (∀ k, k ∈ t.load.readies ↔ k = m.member ∨ k ∈ s.load.readies) ∧
        ∀ k, look 0 t.load.bases k = if k = m.member then m.base else look 0 s.load.bases k) ∧
      (∀ o, s.load.cur = some o → 1 ≤ o.kind → o.kind ≤ 3 → s.load.started = false → s.load.waiting = false →
        (∀ k, k < max 1 o.set → k = m.member ∨ k ∈ s.load.readies) →
        (isRange o = false → s.load.hashes = [] → 0 < leafCount o →
          let b := put 0 s.load.bases m.member m.base
          ∃ t, exec (.ready a m) s = .next t ∧ { t with stl := s.stl, load := s.load } = s ∧
            t.load = { s.load with started := true, readies := [], bases := b, peers := b, slots := t.load.slots } ∧
            ∀ n, slotAt t n = if n = o.slot ∧ o.kind ≠ 3 then { slotAt s n with progress := 0 } else slotAt s n) ∧
        (isRange o = false → ∃ t, exec (.ready a m) s = .next t ∧ ∀ i k, i < nearLeaves o →
          (look none s.load.hashes i).isSome = true → k ∈ forwardLinks s o i → (i, k) ∈ t.load.sent) ∧
        (isRange o = true → rangePast o = false → 0 < o.leaves → s.load.hashes = [] → s.load.reported = [] →
          ∃ t, exec (.ready a m) s = .next t ∧ t.load.started = true ∧ t.load.cur = some o ∧
            t.memory = s.memory ∧ t.cores = s.cores) ∧
        (rangePast o = true → ∃ t, exec (.ready a m) s = .next t ∧ LoadFailed t o))) ∧
    (∀ o, s.load.cur = some o → 1 ≤ o.kind → o.kind ≤ 3 → s.load.started = false → s.load.waiting = false →
      ∃ t, exec .readyTimeout s = .next t ∧ LoadFailed t o ∧ t.cores = s.cores ∧ t.prog = s.prog ∧
        t.memory = s.memory ∧ t.tick = (advance s (s.load.since + 2 ^ 28)).tick) ∧
    (∀ o leaf d, loading s = some o → leaf < leafCount o → hashesLeaf o leaf = true →
      look none s.load.hashes leaf = none →
      let far := decide (nearLeaves o ≤ leaf)
      let n := leafBytes o leaf
      let a := o.base + leaf * 2 ^ 20
      let sent := if ownLeaf s o leaf then memGet s.host (shareAddr o leaf) n
        else (d.bytes ++ List.replicate n 0).take n
      let short := isRange o = false ∨ ∃ k, k < o.set ∧ k ≠ ownMember s o ∧ k ∉ s.load.reported
      let u := (forwardLinks s o leaf).foldl (sendLeaf o leaf sent) (ddrWrite s a sent)
      inOrder s o leaf = true → ddrHeld s = false →
      (d.status ≠ .ok → ∃ t, exec (.loadLeafReceived leaf d far) s = .next t ∧ LoadFailed t o) ∧
      (far = false → d.status = .ok → (ownLeaf s o leaf = true → badWords s.host (shareAddr o leaf) n = []) →
        badWords s.memory.ddr a n = [] →
        (∀ r, failedReq u = some r → ∃ t, exec (.loadLeafReceived leaf d far) s = .next t ∧ LoadFailed t o) ∧
        (failedReq u = none → s.load.hashes.length + 1 < leafCount o → short →
          ∃ t, exec (.loadLeafReceived leaf d far) s = .next t ∧
            look none t.load.hashes leaf = some (leafHash sent) ∧
            (∀ j, j ≠ leaf → look none t.load.hashes j = look none s.load.hashes j) ∧
            (∀ k, k < n → memByte t.memory.ddr (a + k) = sent.getD k 0) ∧
            (∀ x, x < a ∨ a + n ≤ x → memByte t.memory.ddr x = memByte s.memory.ddr x) ∧
            t.load.sent = ((forwardLinks s o leaf).map fun k => (leaf, k)).reverse ++ s.load.sent ∧
            t.load.cur = s.load.cur ∧ t.cores = s.cores ∧ t.prog = s.prog) ∧
        (failedReq u = none → canon none s.load.hashes = true → s.load.hashes.length + 1 = leafCount o →
          o.set = 1 → isRange o = false → o.kind = 1 → s.load.own = none → s.load.verdicts = [] →
          let h := fun i => if i = leaf then leafHash sent else (look none s.load.hashes i).getD 0
          ∃ t, exec (.loadLeafReceived leaf d far) s = .next t ∧
            (merkleRoot ((List.range (leafCount o)).map h) = o.root →
              (slotAt t o.slot).state = .resident ∧ (slotAt t o.slot).root = o.root ∧ t.load.cur = none) ∧
            (merkleRoot ((List.range (leafCount o)).map h) ≠ o.root → LoadFailed t o))) ∧
      (∀ bs, far = true → d.status = .ok → farLeaf s o leaf = some bs → failedReq s = none →
        s.load.hashes.length + 1 < leafCount o → short →
        ∃ t, exec (.loadLeafReceived leaf d far) s = .next t ∧
          look none t.load.hashes leaf = some (leafHash bs) ∧ t.memory = s.memory ∧ t.load.cur = s.load.cur ∧
          ∀ j, j ≠ leaf → look none t.load.hashes j = look none s.load.hashes j)) ∧
    (∀ o leaf d, pendingLoad s = some o → s.load.started = false → leaf < nearLeaves o → isRange o = false →
      ownLeaf s o leaf = false → look none s.load.hashes leaf = none → inOrder s o leaf = true → ddrHeld s = false →
      d.status = .ok → failedReq s = none →
      let n := leafBytes o leaf
      let a := o.base + leaf * 2 ^ 20
      let sent := (d.bytes ++ List.replicate n 0).take n
      badWords s.memory.ddr a n = [] → ∃ t, exec (.loadLeafReceived leaf d false) s = .next t ∧
        look none t.load.hashes leaf = some (leafHash sent) ∧
        (∀ j, j ≠ leaf → look none t.load.hashes j = look none s.load.hashes j) ∧
        (∀ k, k < n → memByte t.memory.ddr (a + k) = sent.getD k 0) ∧
        (∀ x, x < a ∨ a + n ≤ x → memByte t.memory.ddr x = memByte s.memory.ddr x) ∧
        t.load.sent = s.load.sent ∧ t.load.cur = s.load.cur ∧ t.load.started = false) ∧
    (∀ a o m status, Accepts s .member a → s.load.cur = some o → 1 ≤ o.kind → o.kind ≤ 3 →
      s.load.waiting = false → (∀ v, v ∈ s.load.verdicts → v.2 = stOK) →
      (status ≠ stOK → ∃ t, exec (.verdict a m status) s = .next t ∧ LoadFailed t o ∧ t.cores = s.cores) ∧
      (status = stOK → s.load.own ≠ some stOK → ∃ t, exec (.verdict a m status) s = .next t ∧
        { t with stl := s.stl, load := s.load } = s ∧
        t.load = { s.load with verdicts := s.load.verdicts ++ [(m, stOK)] }) ∧
      (status = stOK → s.load.own = some stOK → o.kind = 1 →
        (∀ k, k < max 1 o.set → k = m ∨ k = ownMember s o ∨ ∃ v, v ∈ s.load.verdicts ∧ v.1 = k) →
        ∃ t, exec (.verdict a m status) s = .next t ∧ (slotAt t o.slot).state = .resident ∧
          (slotAt t o.slot).root = s.load.computed ∧ t.load.cur = none)) ∧
    (∀ a m n, Accepts s .member a → ∃ t, exec (.drained a m n) s = .next t ∧
      { t with stl := s.stl, load := s.load } = s ∧
      t.load = { s.load with drained := s.load.drained ++ [(m, n)] }) ∧
    (∀ a o m first hs, Accepts s .member a → pendingLoad s = some o → m ∉ s.load.reported →
      (∀ i, i < hs.length → look none s.load.hashes (first + i) = none ∧ hashesLeaf o (first + i) = false ∧
        first + i < nearLeaves o) →
      s.load.hashes.length + hs.length < leafCount o →
      (∃ k, k < max 1 o.set ∧ k ≠ m ∧ k ≠ ownMember s o ∧ k ∉ s.load.reported) →
      ∃ t, exec (.leafHashes a m first hs) s = .next t ∧ t.load.cur = s.load.cur ∧ m ∈ t.load.reported ∧
        ∀ i h, hs[i]? = some h → look none t.load.hashes (first + i) = some h) ∧
    (∀ a bs, Accepts s .member a → progLive s = true → s.prog.step = true →
      let n := min bs.length (manifestSize s.prog.table)
      let at_ := manifestAddr s (manifestStep bs)
      badWords s.memory.ddr at_ n = [] →
      ∃ t, exec (.manifest a bs) s = .next t ∧ { t with stl := s.stl, memory := s.memory } = s ∧
        (∀ k, k < n → memByte t.memory.ddr (at_ + k) = bs.getD k 0) ∧
        ∀ x, x < at_ ∨ at_ + n ≤ x → memByte t.memory.ddr x = memByte s.memory.ddr x)

/-- LOAD_PATH_NEXT takes up the operation that waits first, a swap only once its barrier stands; while one runs, or a
swap holds the path, or device memory is to be zeroed, none. A LOAD_ADAPTER that waited too long is answered; zeroing a
slot empties it, its region and its bytes, zeroing an adapter slot frees it for the load that waits, which is checked
then, and a page or token store block zeroed is free again, as far as the step's SCRUB_BYTES allow (R257, R284, R289,
R292, R300, R301, R463). The model's own choices in it: logs 9, 62, 63, 74 and 96. -/
def Obligations.LoadPathAndZeroing : Prop :=
  ∀ (s : State),
    let begins := fun (o : LoadOp) => (o.set ≤ 1 ∧ isRange o = false) ∨
      ∃ m, m < o.set ∧ m ≠ ownMember s o ∧ s.load.readies.contains m = false
    let free := s.load.cur = none ∧ s.load.writing = false ∧ ddrHeld s = false
    (¬ free → exec .loadPathNext s = .next s) ∧
    (free → s.load.queue = [] → exec .loadPathNext s = .next s) ∧
    (∀ o q, free → s.load.queue = o :: q →
      (∀ w, o.kind = 2 → swapReady s = some w → 0 < w.near + w.far → begins w → ∃ t, exec .loadPathNext s = .next t ∧
        t.load.cur = some w ∧ t.load.writing = true ∧ t.load.matchedAt = none ∧ t.load.queue = q ∧
        (∀ n, slotAt t n = { slotAt s n with progress := (slotAt t n).progress } ∧
          (n ≠ w.slot → slotAt t n = slotAt s n)) ∧ t.memory = s.memory ∧ t.cores = s.cores) ∧
      (o.kind = 2 → swapReady s = none → exec .loadPathNext s = .next s) ∧
      (o.kind = 1 → 0 < o.near + o.far → modelRefusal s o = none → begins o →
        ∃ t, exec .loadPathNext s = .next t ∧ t.load.cur = some o ∧
          t.load.queue = q ∧ (slotAt t o.slot).state = .loading ∧ (∀ n, n ≠ o.slot → slotAt t n = slotAt s n) ∧
          t.cores = s.cores ∧ t.memory.ddr = s.memory.ddr) ∧
      (∀ n, o.kind = 3 → 0 < o.near + o.far → adapterRefusal s o = none → freeAdapter s = some n → begins o →
        ∃ t, exec .loadPathNext s = .next t ∧ t.load.queue = q ∧ (adapterAt t n).state = .loading ∧
          (adapterAt t n).id = o.id ∧ (∀ m, m ≠ n → adapterAt t m = adapterAt s m) ∧ t.memory = s.memory)) ∧
    (∀ o, s.load.cur = some o → s.load.waiting = true → ∃ t, exec .adapterWaitTimeout s = .next t ∧
      { t with load := s.load, hif := s.hif, host := s.host, tick := s.tick } = s ∧ t.load.cur = none ∧
      t.load.waiting = false ∧ t.load.queue = s.load.queue ∧ t.load.adapters = s.load.adapters ∧
      t.tick = (advance s (s.load.since + o.at_)).tick) ∧
    (∀ n, n < 8 → (slotAt s n).state = .zeroing → (slotAt s n).base % 2 ^ 21 = 0 →
      let lo := (slotAt s n).base
      let hi := lo + roundUnits (slotAt s n).near
      ∃ t, exec (.slotZeroingComplete n) s = .next t ∧ slotAt t n = {} ∧
        (∀ m, m ≠ n → slotAt t m = slotAt s m) ∧
        (∀ m, m < 63 → ¬ ((regionNo t.memory m).valid = true ∧ (regionNo t.memory m).kind = 0 ∧
          (regionNo t.memory m).slot = n)) ∧
        (∀ x, lo ≤ x → x < hi → memByte t.memory.ddr x = 0) ∧
        (∀ x, x < lo ∨ hi ≤ x → memByte t.memory.ddr x = memByte s.memory.ddr x) ∧
        (∀ o, s.load.cur = some o → o.kind = 4 → o.slot = n → t.load.cur = none) ∧
        t.cores = s.cores ∧ t.prog = s.prog) ∧
    (∀ n, n < 1024 → (adapterAt s n).state = .zeroing → scrubAllows s (adapterSize s) = true →
      (s.load.waiting = true → ∀ o, s.load.cur = some o → o.kind = 3 ∧ 0 < o.near + o.far ∧ begins o) →
      let z := setAdapter s n {}
      let lo := adapterAddr s n
      let hi := lo + adapterSize s
      ∃ t, exec (.adapterZeroingComplete n) s = .next t ∧
        (∀ x, lo ≤ x → x < hi → memByte t.memory.ddr x = 0) ∧
        (∀ x, x < lo ∨ hi ≤ x → memByte t.memory.ddr x = memByte s.memory.ddr x) ∧
        t.cores = s.cores ∧ t.load.slots = s.load.slots ∧
        (s.load.waiting = false ∨ s.load.cur = none → adapterAt t n = {} ∧
          ∀ m, m ≠ n → adapterAt t m = adapterAt s m) ∧
        (∀ o, s.load.waiting = true → s.load.cur = some o →
          (∀ e, adapterRefusal z o = some e → t.load.cur = none ∧ t.load.waiting = false ∧
            ∀ m, adapterAt t m = adapterAt z m) ∧
          (adapterRefusal z o = none →
            (freeAdapter z = none → t.load = z.load) ∧
            (∀ k, freeAdapter z = some k → (adapterAt t k).state = .loading ∧ (adapterAt t k).id = o.id ∧
              (adapterAt t k).version = o.version ∧ t.load.waiting = false ∧
              ∀ m, m ≠ k → adapterAt t m = adapterAt z m)))) ∧
    (∀ x, (nextUnit s x = true → scrubAllows s (unitBytes s x) = true →
        (scrubBounded s = false ∨ ∀ n, (adapterAt s n).state ≠ .zeroing) → canon {} s.load.adapters = true →
        let lo := match x with
          | .page p => pageAddr s p
          | .block b => b
        let hi := lo + unitBytes s x
        lo % 8 = 0 → unitBytes s x % 8 = 0 →
        spanHits s.memory.ddr (match x with
          | .page p => [(allocatorAddr s + 8 * p, 8)]
          | .block _ => []) = [] →
        ∃ t, exec (.pageZeroingComplete x) s = .next t ∧ { t with srv := s.srv, memory := s.memory } = s ∧
          (∀ q, q ∈ t.srv.books.fallow ↔ q ∈ s.srv.books.fallow ∧ x ≠ .page q) ∧
          (∀ q, q ∈ t.srv.books.taken ↔ q ∈ s.srv.books.taken ∧ x ≠ .page q) ∧
          (∀ b, b ∈ t.srv.dirty ↔ b ∈ s.srv.dirty ∧ x ≠ .block b) ∧
          t.srv.books.reqs = s.srv.books.reqs ∧
          t.srv.scrubLeft = s.srv.scrubLeft - (if scrubBounded s then unitBytes s x else 0) ∧
          (∀ y, lo ≤ y → y < hi → memByte t.memory.ddr y = 0) ∧
          ∀ y, y < lo ∨ hi ≤ y → memByte t.memory.ddr y = memByte s.memory.ddr y) ∧
      (nextUnit s x = false → exec (.pageZeroingComplete x) s = .next s))

/-! ### Serving and proofs -/

/-- INTAKE_COMPLETE queues its request with the digest of its prompt, and stops the program where an uncorrectable
word stands in what it reads of the index; a boundary that may run decides the next step once, undoable until it
commits, and with no request open masks the step. With one request open, every valid tenant's bucket refills; the
request is bound to the first slot of its kind, in the variant of fewest STEP_TICKS that has one, and pays for it; where
its tenant cannot pay, nothing is bound, and under REJECT a QUEUED request that was never bound ends with
BUDGET_EXHAUSTED. A journaled step releases its completions, or keeps them for the partner's head; the stile signs the
head that is due with a usable identity key, and only then (R157, R241, R246 to R249, R255, R265 to R267, R269, R273,
R327, R334). The model's own choices in it: logs 53, 56, 58 and 96. -/
def Obligations.StepsServed : Prop :=
  ∀ (s : State),
    (∀ i, (reqAt s i).state = .intake ∨ (reqAt s i).state = .held ∧ (reqAt s i).resume = .intake →
      reqBad s i = false → s.memory.ddr.flips = [] → ∃ t, exec (.intakeComplete i) s = .next t ∧
      { t with srv := s.srv, memory := s.memory } = s ∧
      ((reqAt s i).state = .intake → (reqAt t i).state = .queued) ∧
      ((reqAt s i).state = .held → (reqAt t i).state = .held ∧ (reqAt t i).resume = .queued) ∧
      (reqAt t i).promptDig = sha256 (tokenBytes (reqAt s i).prompt) ∧
      (reqAt t i).prompt = (reqAt s i).prompt ∧ ∀ j, j ≠ i → reqAt t j = reqAt s j) ∧
    (∀ i, (reqAt s i).state = .intake → reqBad s i = false → s.prog.phase = .running → s.tick.stop.valid = false →
      (spanHits s.memory.ddr (lookupSpans s (reqAt s i))).any (·.2) = true →
      ∃ t, exec (.intakeComplete i) s = .next t ∧ t.prog.phase = .done ∧ t.tick.stop.valid = true ∧
        t.tick.stop.code = fcUncorr ∧ t.tick.stop.cause = 5) ∧
    (boundaryReady s = true → s.memory.ddr.flips = [] → (openReqs s).any (reqBad s) = false →
      (s.srv.books.tenants.map (·.1)).any (tenantBad s) = false → follows s = false → pairFollows s = false →
      ∃ t d, exec .boundaryStart s = .next t ∧ t.srv.decision = some d ∧ d.step = s.srv.curStep ∧
        d.stroke = s.tick.stroke ∧ t.srv.saved = some s.srv.books ∧ t.srv.step = s.srv.step ∧
        t.tick.rimBusy = false ∧ t.srv.cancels = [] ∧ t.srv.budgets = [] ∧ t.srv.retires = [] ∧
        t.cores = s.cores ∧ t.prog = s.prog ∧
        (s.srv.books.reqs = [] → s.srv.books.bound = [] → d.outs = [] ∧ t.srv.books.reqs = [] ∧
          t.srv.books.bound = [] ∧ t.srv.books.variant = maskedVariant s.prog.table)) ∧
    (∀ i r, boundaryReady s = true → s.memory.ddr.flips = [] → follows s = false → pairFollows s = false →
      (s.srv.books.tenants.map (·.1)).any (tenantBad s) = false → s.srv.books.bound = [] → s.srv.substs = [] →
      s.srv.cancels = [] → s.srv.budgets = [] → s.srv.retires = [] → s.load.swap = none →
      s.srv.books.reqs = [(i, r)] → reqBad s i = false → r.deadline = 0 → r.switches = [] →
      r.gen = (fnAt s r.fn).gen → (tenantAt s r.tenant).valid = true →
      (r.state = .decode ∨ r.state = .prefill ∨ r.state = .queued) →
      let b := s.srv.books
      let refilled := fun (x : Tenant) => { x with
        level := min (x.burst * 2 ^ 32) (x.level + x.rate * (s.tick.gtc - x.refilled)), refilled := s.tick.gtc }
      let ten := refilled (tenantAt s r.tenant)
      let others := fun (t : State) => ∀ m, m ≠ r.tenant →
        tenantAt t m = if (tenantAt s m).valid then refilled (tenantAt s m) else tenantAt s m
      let decodes := decide (r.state = .decode)
      let len := if decodes then 1 else min (max 1 s.prog.table.chunk) (fillTotal r - r.prefilled)
      let pos := if decodes then contextLen r - 1 else r.prefilled
      let charge := if decodes then 2 ^ 32 else len * ten.cost * 2 ^ 24
      let unpaid := r.state = .queued ∧ r.firstStep = 0 ∧ ten.reject = true
      let new := contextPages s r - r.pages.length
      let fits := fun (x : Shape) => if decodes then 1 ≤ x.d else 1 ≤ x.p / max 1 s.prog.table.chunk
      (ten.level < charge → ¬ unpaid → ∃ t, exec .boundaryStart s = .next t ∧ t.srv.books.bound = [] ∧
        t.srv.books.variant = maskedVariant s.prog.table ∧ tenantAt t r.tenant = ten ∧ others t ∧ reqAt t i = r) ∧
      (ten.level < charge → unpaid → ∃ t, exec .boundaryStart s = .next t ∧ t.srv.books.bound = [] ∧
        t.srv.books.variant = maskedVariant s.prog.table ∧ others t ∧
        tenantAt t r.tenant = { ten with rejected := min (ten.rejected + 1) (2 ^ 32 - 1) } ∧
        reqAt t i = { r with state := .ending, status := stBudget }) ∧
      (∀ v x, charge ≤ ten.level → bindsNothing s = false → (slotAt s r.slot).state = .resident →
        (fnAt s r.fn).held.length ≤ 4096 → (pos + len + pageTokens s - 1) / pageTokens s ≤ r.pages.length →
        (r.firstStep = 0 → r.storeLen ≠ 0 ∧ reservedPages b + new ≤ pagesFree b) →
        s.prog.table.shapes[v]? = some x → fits x →
        (∀ w y, s.prog.table.shapes[w]? = some y → fits y → x.ticks < y.ticks ∨ (x.ticks = y.ticks ∧ v ≤ w)) →
        let started := if r.state = .queued then { r with state := .prefill } else r
        ∃ t, exec .boundaryStart s = .next t ∧ t.srv.books.variant = v ∧
          t.srv.books.bound = [{ req := i, kind := if decodes then 0 else 1, slot := 0, pos := pos, len := len
                                 last := !decodes && decide (fillTotal r ≤ pos + len) }] ∧
          tenantAt t r.tenant = { ten with level := ten.level - charge } ∧ others t ∧
          reqAt t i = if r.firstStep = 0 then
            { started with reserved := new, firstStep := s.srv.curStep + 1, epoch := (slotAt s r.slot).epoch
                           root := (slotAt s r.slot).root, slotAt := r.slot }
            else started)) ∧
    (boundaryReady s = false → exec .boundaryStart s = .next s) ∧
    (∀ d rest, s.srv.journal = d :: rest →
      (gatesStep s d.step = true → ∃ t, exec .journalWriteComplete s = .next t ∧
        { t with srv := s.srv, proofs := s.proofs, host := s.host } = s ∧
        t.proofs = { s.proofs with gated := s.proofs.gated ++ [d] } ∧
        t.srv = { s.srv with journal := rest, jrnDone := d.step
                             jrnPos := s.srv.jrnPos + (journalRecord d).length }) ∧
      (gatesStep s d.step = false → s.proofs.pairState ≠ 3 → s.memory.ddr.flips = [] →
        ∃ t, exec .journalWriteComplete s = .next t ∧
        t.srv.jrnDone = d.step ∧ t.srv.jrnPos = s.srv.jrnPos + (journalRecord d).length ∧
        t.cores = s.cores ∧ t.tick = s.tick ∧ t.prog = s.prog ∧
        ∀ o, o ∈ d.outs → o.silent = false → o.done.isSome = true →
          (reqAt t o.req).state = .free ∨ doneHeld t o.req = true)) ∧
    (∀ h, s.proofs.due = some h →
      (s.stl.state = 1 → identityUsable s = true → s.memory.ddr.flips = [] →
        ∃ t, exec .headSign s = .next t ∧ t.proofs.due = none ∧
          t.proofs.signed = h.step ∧ t.free = s.free + 1 ∧ t.cores = s.cores ∧ t.tick = s.tick) ∧
      (identityUsable s = false → exec .headSign s = .next s)) ∧
    (s.srv.journal = [] → exec .journalWriteComplete s = .next s) ∧
    (s.proofs.due = none → exec .headSign s = .next s)

/-- A paired device compares its heads with its partner's: equal heads match the step, different ones end the
comparison as DIVERGED at that step, and no head or no match within 2^28 ticks ends it as LOST or DIVERGED;
the partner's bindings are kept for the boundary (R333 to R336). The model's own choices in it: logs 9 and 59. -/
def Obligations.PairsCompared : Prop :=
  ∀ (s : State), s.proofs.pairState = 1 →
    (∀ a k h, Accepts s .pair a →
      (s.proofs.ownHeads = [] → ∃ t, exec (.pair a (.head k h)) s = .next t ∧
        { t with stl := s.stl, proofs := s.proofs } = s ∧
        t.proofs = { s.proofs with peerHeads := s.proofs.peerHeads.filter (fun p => p.1 != k) ++ [(k, h)] }) ∧
      (∀ own at_, s.proofs.ownHeads = [(k, own, at_)] → own = h → s.proofs.held = [] → s.memory.ddr.flips = [] →
        ∃ t, exec (.pair a (.head k h)) s = .next t ∧ t.proofs.pairState = 1 ∧
          t.proofs.matched = max s.proofs.matched k ∧ t.proofs.ownHeads = [] ∧ t.cores = s.cores ∧
          ∀ d, d ∈ t.proofs.gated ↔ d ∈ s.proofs.gated ∧ k < d.step) ∧
      (∀ own at_, s.proofs.ownHeads = [(k, own, at_)] → own ≠ h → s.memory.ddr.flips = [] →
        ∃ t, exec (.pair a (.head k h)) s = .next t ∧ t.proofs.pairState = 3 ∧ t.proofs.divStep = k ∧
          t.proofs.ownHeads = [] ∧ t.proofs.gated = [] ∧ t.cores = s.cores)) ∧
    (∀ a k v slots ends sw, Accepts s .pair a →
      let m := PairMsg.bindings k v slots ends sw
      ∃ t, exec (.pair a m) s = .next t ∧ { t with stl := s.stl, proofs := s.proofs } = s ∧
        t.proofs = { s.proofs with bindings := s.proofs.bindings.filter (· != m) ++ [m] }) ∧
    (∀ k own at_ rest, s.proofs.ownHeads = (k, own, at_) :: rest →
      (s.proofs.peerHeads.any fun p => p.1 == k) = false → s.memory.ddr.flips = [] →
      ∃ t, exec .pairHeadTimeout s = .next t ∧ t.proofs.pairState = 2 ∧ t.proofs.ownHeads = [] ∧
        t.proofs.gated = [] ∧ t.tick = (advance s (at_ + 2 ^ 28)).tick ∧ t.cores = s.cores ∧ t.prog = s.prog) ∧
    (∀ since, s.proofs.bindSince = some since → s.memory.ddr.flips = [] →
      ∃ t, exec .pairBindingTimeout s = .next t ∧ t.proofs.pairState = 3 ∧
        t.proofs.divStep = s.srv.curStep + 1 ∧ t.proofs.bindSince = none ∧ t.proofs.gated = [] ∧
        t.tick = (advance s (since + 2 ^ 28)).tick ∧ t.cores = s.cores)

/-- An image that every check passes is loaded with the cores in their setup sections; one that the first
checks refuse ends the launch. The host port reaches the shared region through its committed decoder: a write
stores its bytes, a read delivers them, and each line is tracked; while device memory is to be zeroed an access waits.
While the ROM waits for an image the port trains for CXL.io alone, and with the link a snapshot that waits is written.
The CDAT describes the region, on PF0 alone (R223, R228, R408, R409, R411, R433, R434, R446, R463, R465). The model's own
choices in it: logs 60, 61 and 68. -/
def Obligations.ImagesAndHostAccess : Prop :=
  ∀ (s : State),
    (s.prog.phase = .accepted → recordsOut s = true →
      let u := deriveGrade (removeCreated s)
      let im := s.prog.image
      (earlyRefusal u im = none → gridOk u im = true → formOk im = true → overDeclared im = none →
        lateRefusal u im = none → (s.fab.part ≠ .unassigned ∨ imgDevices im = 1) →
        ∃ t, exec .imageLoad s = .next t ∧ t.prog.phase = .loaded ∧ t.cores = loadCores im ∧ t.transit = [] ∧
          t.links = s.links ∧ t.load = s.load) ∧
      (∀ e, earlyRefusal u im = some e → ∃ t, exec .imageLoad s = .next t ∧ progHeld t = false ∧
        t.cores = s.cores ∧ t.links = s.links)) ∧
    (s.prog.phase ≠ .accepted → exec .imageLoad s = .next s) ∧
    (∀ l : HostLink, (l.width = 8 ∨ l.width = 16) →
      (l.rate = 4 ∧ l.flit256 = true ∨ 1 ≤ l.rate ∧ l.rate ≤ 3 ∧ l.flit256 = false) →
      let hif := { s.hif with
        link := if s.stl.romWait then { l with cache := false, mem := false } else l, polled := s.tick.gtc }
      (s.guard.captured = false ∨ s.guard.written = true →
        exec (.hostPortLinkTrained l) s = .next { s with hif := hif }) ∧
      (s.guard.captured = true → s.guard.written = false → ∃ t, exec (.hostPortLinkTrained l) s = .next t ∧
        { t with hif := s.hif, guard := s.guard, host := s.host } = s ∧ t.hif = hif ∧
        t.guard = { s.guard with written := true })) ∧
    (∀ l : HostLink, (l.width ≠ 8 ∧ l.width ≠ 16 ∨ (l.rate = 4 ∧ l.flit256 = false) ∨
        (1 ≤ l.rate ∧ l.rate ≤ 3 ∧ l.flit256 = true)) → exec (.hostPortLinkTrained l) s = .next s) ∧
    (cdatRead 0 0 = some (.dsmas 0 0 (2 ^ 36)) ∧ cdatRead 0 1 = some (.dslbis 0 .readLatency 400) ∧
      cdatRead 0 2 = some (.dslbis 0 .writeLatency 400) ∧ cdatRead 0 3 = some (.dslbis 0 .readBandwidth 100) ∧
      cdatRead 0 4 = some (.dslbis 0 .writeBandwidth 100) ∧ ∀ f i, f ≠ 0 ∨ 5 ≤ i → cdatRead f i = none) ∧
    exec .hdmDecoderCommit s = .next { s with hif := { s.hif with hdm := true } } ∧
    (∀ write dpa bs, s.hif.hdm = true → s.hif.link.mem = true → s.die.d48 = true → dpa + bs.length ≤ 2 ^ 36 →
      ddrHeld s = true → exec (.hostSharedAccess write dpa bs) s = .next { s with hif := { s.hif with
        sharedWait := s.hif.sharedWait ++ [(write, shareLo + dpa, bs)] } }) ∧
    (∀ dpa bs, s.hif.hdm = true → s.hif.link.mem = true → s.die.d48 = true → dpa + bs.length ≤ 2 ^ 36 →
      ddrHeld s = false →
      (badWords s.memory.ddr (shareLo + dpa) bs.length = [] →
        ∃ t, exec (.hostSharedAccess true dpa bs) s = .next t ∧ { t with hif := s.hif, memory := s.memory } = s ∧
          (∀ k, k < bs.length → memByte t.memory.ddr (shareLo + dpa + k) = bs.getD k 0) ∧
          ∀ x, x < shareLo + dpa ∨ shareLo + dpa + bs.length ≤ x →
            memByte t.memory.ddr x = memByte s.memory.ddr x) ∧
      (badWords s.memory.ddr (shareLo + dpa) bs.length = [] →
        correctedWords s.memory.ddr (shareLo + dpa) bs.length = [] →
        ∃ t, exec (.hostSharedAccess false dpa bs) s = .next t ∧ { t with hif := s.hif } = s ∧
          t.hif.readOut = memGet s.memory.ddr (shareLo + dpa) bs.length ∧ t.hif.readBad = false ∧
          (0 < bs.length → bs.length ≤ 64 → dpa % 64 = 0 → t.hif.tracker.head? = some ((shareLo + dpa) / 64))))

/-! ### The stile -/

/-- The ROM starts the firmware of slot A, else of slot B, else waits for an image of the host over the trained port;
SPDM answers are signed with a usable identity key or refused; a session needs the anchor, is renewed by what comes in
it, and ends by END_SESSION or a missed heartbeat; a chain is installed after GET_CSR, and checked; measurements are
answered by index; a debug token that passes opens its scopes with keys and plates zeroed, and the nonce is fresh after
any; the unlock expires; the watchdog ends what the stile was doing, and by the check of the copy in RAM it runs again or
stays halted; a closed test access port answers only IDCODE, BYPASS and the token register, and what a token opened
(R443 to R457). The model's own choices in it: that a stile that restarts is at once RUNNING (log 19); the heartbeat's
two periods (log 98); the chain's check as it is installed (log 100); logs 9, 16 and 17. -/
def Obligations.StileCommands : Prop :=
  ∀ (s : State),
    (∀ a b, s.stl.state = 0 → s.pins.pgStl = true → s.die.d49 = true → s.stl.romWait = false →
      (flashOk s a = true ∨ flashOk s b = true → ∃ t, exec (.bootRomStart a b) s = .next t ∧
        (ChansQuiet s → { t with stl := s.stl, pwr := s.pwr } = s) ∧ t.stl.state = 1 ∧ t.pwr.boot = 1 ∧
        t.stl.source = (if flashOk s a then 0 else 1) ∧
        t.stl.svn = fwSvn (if flashOk s a then a.bytes else b.bytes) ∧
        t.stl.meas2 = fwDigest (if flashOk s a then a.bytes else b.bytes) ∧
        t.stl.identity = (s.lcf.wrapped && (s.lcf.state == 1 || s.lcf.state == 2)) ∧
        t.stl.cert = (s.lcf.wrapped && s.stl.chain != [] && Config.chainOk s.stl.chain)) ∧
      (flashOk s a = false → flashOk s b = false → exec (.bootRomStart a b) s =
        .next { s with
          stl := { s.stl with romWait := true }
          hif := { s.hif with link := { s.hif.link with cache := false, mem := false } } })) ∧
    (∀ im, s.stl.romWait = true → s.hif.link.rate = 0 → exec (.fwLoad im) s = .next s) ∧
    (∀ im, s.stl.romWait = true → s.hif.link.rate ≠ 0 → (fwOk s im = true → ∃ t, exec (.fwLoad im) s = .next t ∧
        (ChansQuiet s → { t with stl := s.stl, pwr := s.pwr } = s) ∧ t.stl.state = 1 ∧ t.stl.source = 2 ∧
        t.stl.romWait = false ∧ t.pwr.boot = 1) ∧
      (fwOk s im = false → exec (.fwLoad im) s = .next s)) ∧
    (s.stl.state = 1 →
      (∀ version m,
        let live := liveSessions s
        let v := if m.session = 0 then { s with stl := { s.stl with sessions := live } }
          else { s with stl := { s.stl with
            sessions := live.map fun x => if x.id = m.session then { x with since := s.tick.gtc } else x } }
        let ok := Config.spdmAnswer s.free
        let tells := fun (x : State) (bs : List Byte) => exec (.spdmRequest version m) s =
          .next { x with stl := { x.stl with answer := bs }, free := s.free + 1 }
        let signs := fun (x : State) =>
          tells x (if identityUsable s then ok ++ signatureBytes s ok else [0x7F, 0x05])
        (version ≠ 0x12 → version ≠ 0x13 → tells s [0x7F, 0x41]) ∧
        (version = 0x12 ∨ version = 0x13 →
          (m.session ≠ 0 → (∀ x ∈ live, x.id ≠ m.session) →
            tells { s with stl := { s.stl with sessions := live } } [0x7F, 0x02]) ∧
          (m.session = 0 ∨ (∃ x ∈ live, x.id = m.session) →
            (m.ask = .plain → tells v ok) ∧ (m.ask = .signed → signs v) ∧
            (m.ask = .getCsr → signs { v with stl := { v.stl with csr := v.stl.csr || identityUsable s } }) ∧
            (∀ chain, m.ask = .setCertificate chain → (s.stl.csr = false → tells v [0x7F, 0x04]) ∧
              (s.stl.csr = true → tells { v with stl := { v.stl with
                chain := chain, cert := s.lcf.wrapped && chain != [] && Config.chainOk chain } } ok)) ∧
            (m.ask = .heartbeat ∨ m.ask = .keyUpdate ∨ m.ask = .endSession →
              (m.session = 0 → tells v [0x7F, 0x04]) ∧
              (m.session ≠ 0 → (m.ask = .heartbeat → tells v ok) ∧
                (m.ask = .keyUpdate → tells { v with stl := { v.stl with
                  sessions := v.stl.sessions.map fun x =>
                    if x.id = m.session then { x with updates := x.updates + 1 } else x } } ok) ∧
                (m.ask = .endSession → tells { v with stl := { v.stl with
                  sessions := v.stl.sessions.filter fun x => x.id != m.session } } ok)))))) ∧
      (∀ session anchor valid,
        let ok := Config.spdmAnswer s.free
        let answers := fun (bs : List Byte) => exec (.keyExchange session anchor valid) s =
          .next { s with stl := { s.stl with answer := bs }, free := s.free + 1 }
        let allowed := s.stl.anchor ≠ 0 ∧ anchor = s.stl.anchor ∧ valid = true ∧ identityUsable s = true
        (allowed → (liveSessions s).length < 8 →
          (1 < session → keyHeld s session = false → exec (.keyExchange session anchor valid) s =
            .next { s with
              stl := { s.stl with
                sessions := { id := session, ems := Config.exportSecret s.free, period := Config.heartbeat s.free
                              since := s.tick.gtc } :: liveSessions s
                answer := ok ++ signatureBytes s ok }
              free := s.free + 1 }) ∧
          (session ≤ 1 ∨ keyHeld s session = true → exec (.keyExchange session anchor valid) s = .next s)) ∧
        (allowed → 8 ≤ (liveSessions s).length → answers [0x7F, 0x03]) ∧ (¬ allowed → answers [0x7F, 0x05])) ∧
      (let answers := fun (i : Nat) (bs : List Byte) =>
        exec (.getMeasurements ⟨i, false⟩) s =
          .next { s with stl := { s.stl with answer := bs }, free := s.free + 1 } ∧
        (identityUsable s = true → exec (.getMeasurements ⟨i, true⟩) s = .next { s with
          stl := { s.stl with answer := bs ++ signatureBytes s bs }, free := s.free + 1 }) ∧
        (identityUsable s = false → exec (.getMeasurements ⟨i, true⟩) s = .next { s with
          stl := { s.stl with answer := [0x7F, 0x05] }, free := s.free + 1 })
       answers 0 [16] ∧ (∀ i, 1 ≤ i → i ≤ 16 → answers i (digestBytes (measurement s i))) ∧
        answers 0xFF ((List.range 16).flatMap fun i => digestBytes (measurement s (i + 1))) ∧
        ∀ i sg, 16 < i → i ≠ 0xFF → exec (.getMeasurements ⟨i, sg⟩) s = .next { s with
          stl := { s.stl with answer := [0x7F, 0x01] }, free := s.free + 1 }) ∧
      (∀ token, ∃ t, exec (.debugTokenSubmit token) s = .next t ∧ t.free = s.free + 1 ∧
        t.stl.nonce = Config.debugNonce s.free ∧
        (tokenOk s token = true → t.lcf.unlocked = true ∧ t.lcf.scope = tokenScope token ∧
          t.stl.identity = false ∧ t.stl.sessions = [] ∧ ∀ v, coreAt t v = zeroCore (coreAt s v)) ∧
        (tokenOk s token = false → { t with stl := s.stl, free := s.free } = s)) ∧
      (∀ l, s.stl.wdtEn = true →
        let ram := upsetRam s.stl.ram l
        ∃ t, exec (.stileWatchdogExpiry l) s = .next t ∧
        t.stl.wdtResets = min (s.stl.wdtResets + 1) 255 ∧ t.lcf.busy = false ∧ t.fab.waitMgmt = [] ∧
        t.lcf.unlocked = false ∧ t.stl.ram = ram ∧
        (s.memory.ddr.flips = [] → t.proofs.due = none ∧ t.cores = s.cores ∧ t.links = s.links) ∧
        (s.proofs.due = none → t.memory = s.memory ∧ t.cores = s.cores) ∧
        t.stl.state = if badWords ram 0 s.stl.ramBytes = [] ∧ sha256 (memGet ram 0 s.stl.ramBytes) = s.stl.meas2 ∧
          (recentResets s).length < 3 then 1 else 3)) ∧
    (s.lcf.unlocked = true → ∃ t, exec .debugUnlockExpiry s = .next t ∧
      { t with lcf := s.lcf, stl := s.stl, tick := s.tick } = s ∧
      t.lcf = { s.lcf with unlocked := false, scope := 0, until_ := 0 } ∧
      t.tick = (advance s s.lcf.until_).tick) ∧
    (s.lcf.unlocked = false → exec .debugUnlockExpiry s = .next s) ∧
    (∀ u, (s.lcf.lockFuse = false ∨ s.lcf.state = 3 → tapAnswers s u = true) ∧
      (u = .idcode ∨ u = .bypass ∨ u = .tokenReg → tapAnswers s u = true) ∧
      (s.lcf.lockFuse = true → s.lcf.state ≠ 3 →
        (u = .boundary → tapAnswers s u = (s.lcf.unlocked && s.lcf.scope.getLsbD 0)) ∧
        (u = .instrument → tapAnswers s u = (s.lcf.unlocked && s.lcf.scope.getLsbD 1)) ∧
        (u = .scan → tapAnswers s u = (s.lcf.unlocked && s.lcf.scope.getLsbD 2))))

/-! ### Resets, bring-up, power -/

/-- A cold reset keeps the fuse settings, the pins, host memory, the chain in tray flash and nothing else of the device; a
warm reset keeps the GTC, the fuses, the stile, what it holds of the rails, the mark of a lost heath and RESIDENT slots
with their regions, voids an uncommitted boundary, ends a debug unlock, and after POWER_OFF does nothing; a supply of D49
that is lost is a cold reset (R31, R206, R300, R457, R483 to R485, R487, R495, R496, R503). The model's own choices in
it: logs 5, 7 and 18. -/
def Obligations.ResetsKeepWhatTheyMust : Prop :=
  ∀ (s : State),
    (∀ strap lost, ∃ t, exec (.coldReset strap lost) s = .next t ∧
      t.cores = [] ∧ t.memory = State.reset.memory ∧ t.links = State.reset.links ∧ t.prog = State.reset.prog ∧
      t.srv = State.reset.srv ∧ t.load = State.reset.load ∧ t.proofs = State.reset.proofs ∧
      t.fab = State.reset.fab ∧ t.hif = State.reset.hif ∧ t.guard = State.reset.guard ∧ t.host = s.host ∧
      t.pending = s.pending ∧ t.stl.chain = s.stl.chain ∧ t.stl.cert = false ∧ t.stl.sessions = [] ∧
      t.stl.state = 0 ∧ t.die.d49 = t.pins.pgStl ∧
      t.pins = { s.pins with strap := strap, pgStl := s.pins.pgStl && !lost, alert := false, refMain := true
                             refTick := true } ∧
      t.pwr.level = (if s.pins.pcap then 8 else 0) ∧ t.pwr.cause = (if lost then 0 else if s.guard.off then s.pwr.cause else 1) ∧
      (∀ h, h < 48 → heathAt t h = { fuse := look 0 t.lcf.maps h }) ∧
      (s.lcf.busy = false → t.lcf = keepFuses s.lcf ∧ t.die.fusedGrade = s.die.fusedGrade ∧
        t.die.downbinLeft = s.die.downbinLeft)) ∧
    (s.guard.off = true → exec .warmReset s = .next s) ∧
    (s.guard.off = false → s.guard.running ≠ some .zeroizeDdr → ∃ t, exec .warmReset s = .next t ∧
      t.pwr.cause = 2 ∧ t.tick.gtc = s.tick.gtc ∧ t.tick.running = s.tick.running ∧ t.cores = [] ∧
      t.host = s.host ∧ t.pending = s.pending ∧ t.guard = s.guard ∧ t.die.d48 = s.die.d48 ∧ t.die.lost = 0 ∧
      t.stl.sessions = s.stl.sessions ∧ t.stl.identity = s.stl.identity ∧ t.stl.lock = false ∧
      t.lcf = { s.lcf with unlocked := false, scope := t.lcf.scope, until_ := t.lcf.until_ } ∧
      t.srv = {} ∧ t.prog = {} ∧ t.hif = {} ∧ t.fab = {} ∧ t.links = [] ∧ t.load.cur = none ∧
      t.pins = { s.pins with alert := false } ∧
      (s.srv.decision = none →
        (∀ n, (slotAt s n).state = .resident → slotAt t n = slotAt s n) ∧
        (∀ n, n < 63 → (regionNo s.memory n).valid = true → (regionNo s.memory n).kind = 0 →
          (slotAt s (regionNo s.memory n).slot).state = .resident →
          regionNo t.memory n = regionNo s.memory n)) ∧
      (∀ d b n x, s.srv.decision = some d → s.srv.saved = some b → d.slotWas = some (n, x) → x.state = .resident →
        slotAt t n = x) ∧
      (∀ h, h < 48 → let x := heathAt s h
        heathAt t h = { fuse := x.fuse, mirror := x.mirror, runtime := x.mirror, railVid := x.railVid
                        sramVid := x.sramVid, avsHeld := x.avsHeld, lowerAt := x.lowerAt
                        lossLatch := x.lossLatch })) ∧
    (exec (.powerGoodLoss ⟨.stl, false⟩) s = exec (.coldReset s.pins.strap true) s)

/-- Bring-up: with the firmware running and every power-good there, D48 comes up, and the GTC starts at 0 unless it counts
already; the heaths are switched on in order, one that was lost before is lost again, and each is tested or lost, by the
first cause of a fixed order; channels train or fail, DDR is zeroed, and READY follows when all of it has ended (R16,
R17, R30, R31, R471, R472). R30 gives no order among the causes of one loss: that order is the model's (log 82), as are
logs 9 and 19. -/
def Obligations.BringUpReachesReady : Prop :=
  ∀ (s : State),
    (s.pwr.boot = 1 → s.stl.state = 1 → powerGood s = true → s.guard.off = false →
      ∃ t, exec .bringUpStart s = .next t ∧
      { t with die := s.die, tick := s.tick, pwr := s.pwr } = s ∧ t.die = { s.die with d48 := true } ∧
      t.tick = (if s.tick.running then s.tick else { s.tick with gtc := 0, running := true }) ∧
      t.pwr = { s.pwr with boot := 2, d48Shown := true, upAt := t.tick.gtc, capAt := t.tick.gtc
                           throttleAt := t.tick.gtc }) ∧
    (∀ h, h < 48 → bringsUp s = true → (heathAt s h).on = false → switchedBefore s h = true →
      let a := advance s (s.pwr.upAt + 400000 + 80000 * h)
      let c := (heathAt s h).lossLatch
      (c = 0 → ∃ t, exec (.heathSwitchOn h) s = .next t ∧
        { t with heaths := s.heaths, tick := s.tick, pwr := s.pwr } = s ∧
        heathAt t h = { heathAt s h with on := true } ∧ (∀ g, g ≠ h → heathAt t g = heathAt s g) ∧
        t.tick = a.tick ∧ t.pwr = { s.pwr with throttle := throttleNow a, throttleAt := a.tick.gtc }) ∧
      (c ≠ 0 → ∃ t, exec (.heathSwitchOn h) s = .next t ∧ (heathAt t h).on = true ∧ (heathAt t h).state = .lost ∧
        (heathAt t h).lossCause = c ∧ t.die.lost.getLsbD h = true)) ∧
    (∀ h, h < 48 → (heathAt s h).on = true → (heathAt s h).state = .off →
      (∃ t, exec (.powerGoodTimeout h) s = .next t ∧ (heathAt t h).state = .lost ∧
        (heathAt t h).lossCause = 1 ∧ t.die.lost.getLsbD h = true) ∧
      (∀ r, testLoss s h r = none → ∃ t, exec (.heathSelfTestDone h r) s = .next t ∧
        { t with heaths := s.heaths, die := s.die, pwr := s.pwr } = s ∧
        heathAt t h = testedHeath s h r (heathAt s h) ∧ (∀ g, g ≠ h → heathAt t g = heathAt s g) ∧
        (r.hasherOk = false → look none t.die.spareHash (homeMr h) = some h)) ∧
      (∀ r c, testLoss s h r = some c → ∃ t, exec (.heathSelfTestDone h r) s = .next t ∧
        (heathAt t h).state = .lost ∧ (heathAt t h).lossCause = c ∧ t.die.lost.getLsbD h = true)) ∧
    (∀ c, c < 80 → bringsUp s = true → (chanAt s c).trained = false → (chanAt s c).failed = false →
      (∃ t, exec (.channelTrainingDone c true) s = .next t ∧
        chanAt t c = { chanAt s c with trained := true } ∧ (∀ d, d ≠ c → chanAt t d = chanAt s d) ∧
        t.cores = s.cores ∧ t.heaths = s.heaths) ∧
      (∃ t, exec (.channelTrainingDone c false) s = .next t ∧ (chanAt t c).failed = true)) ∧
    (bringsUp s = true → chansSettled s = true → s.memory.zeroed = false → ∃ t, exec .ddrInitZeroDone s = .next t ∧
      { t with die := s.die, pwr := s.pwr, memory := s.memory } = s ∧ (∀ a, memByte t.memory.ddr a = 0) ∧
      t.memory.zeroed = true ∧
      (heathsSettled s = true → t.pwr.boot = 3 ∧ t.pwr.ready = true ∧ t.die.effGrade = gradeOf s) ∧
      (heathsSettled s = false → t.pwr = s.pwr))

/-- A supply, a clock, a heath or a rim die that is lost takes its domain: heaths are LOST, D48 stops with the
GTC and the grade NONE, REFCLK_TICK leaves a locked device in HOLDOVER, REFCLK_MAIN takes every link DOWN; a power-good
that returns is high again, and until PG_STL does the others change nothing but their pins. A core that faults issues no
more and stops its program; its heath keeps the first record, of faults in one tick that of the lowest virtual index,
and of one core's the lowest code, and counts the others (R30 to R33, R130 to R132, R182, R207, R485, R503, R511). That
one tick stands for one cycle is the model's choice (log 80), as are the DETAIL of the rim die's event (log 101), the
bound of a master that has lost its reference (log 83) and logs 7 and 41. -/
def Obligations.LossesTakeTheirDomains : Prop :=
  ∀ (s : State),
    (∀ pg, exec (.powerGoodLoss ⟨pg, true⟩) s = .next { s with
      pins := setPg s.pins pg true, die := { s.die with d49 := s.die.d49 || decide (pg = .stl) } }) ∧
    (∀ pg, pg ≠ PowerGood.stl → s.pins.pgStl = false →
      exec (.powerGoodLoss ⟨pg, false⟩) s = .next { s with pins := setPg s.pins pg false }) ∧
    (∀ pg, pg = PowerGood.hcore ∨ pg = .hsram → s.pins.pgStl = true →
      ∃ t, exec (.powerGoodLoss ⟨pg, false⟩) s = .next t ∧
      ∀ h, h < 48 → (heathAt t h).state = .lost ∧
        ((heathAt s h).state ≠ .lost → (heathAt t h).lossCause = 1 ∧ t.die.lost.getLsbD h = true)) ∧
    (∀ pg, pg = PowerGood.rim ∨ pg = .mem ∨ pg = .sd → s.pins.pgStl = true →
      ∃ t, exec (.powerGoodLoss ⟨pg, false⟩) s = .next t ∧
      { t with pins := s.pins, die := s.die, tick := s.tick, heaths := s.heaths } = s ∧
      t.die = { s.die with d48 := false, effGrade := 0xF } ∧ t.tick = { s.tick with running := false } ∧
      ∀ h, h < 48 → heathAt t h = { heathAt s h with frozen := true }) ∧
    (∃ t, exec (.refclkLoss true) s = .next t ∧
      { t with pins := s.pins, tick := s.tick, hif := s.hif, host := s.host } = s ∧
      t.pins = { s.pins with refTick := false } ∧ t.tick.gtc = s.tick.gtc ∧
      t.tick.sync = if masterRef s = true ∨ s.tick.sync = .locked then .holdover else s.tick.sync) ∧
    (∃ t, exec (.refclkLoss false) s = .next t ∧ (∀ h, h < 48 → (heathAt t h).state = .lost) ∧
      ∀ n, n < 36 → (linkAt s n).state ≠ .off → (linkAt t n).state = .down ∧
        ((linkAt s n).state ≠ .down → (linkAt t n).reason = 2)) ∧
    (∀ h cause, h < 48 → (heathAt s h).on = true → 1 ≤ cause → cause ≤ 6 →
      ((heathAt s h).state ≠ .lost → ∃ t, exec (.heathLoss h cause) s = .next t ∧
        (heathAt t h).state = .lost ∧ (heathAt t h).lossCause = cause ∧ t.die.lost.getLsbD h = true ∧
        t.die.effGrade = 0xF ∧
        (progLive s = true → (heathAt s h).fault.valid = false →
          (heathAt t h).fault.valid = true ∧ (heathAt t h).fault.code = 0x0A) ∧
        (s.tick.launched = true → progLive s = true → t.prog.phase = .done ∧
          (s.tick.stop.valid = false → t.tick.stop.cause = 6))) ∧
      ((heathAt s h).state = .lost → s.pwr.boot ≠ 2 → exec (.heathLoss h cause) s = .next s)) ∧
    (∀ v (f : FltAt), progLive s = true →
      let h := heathOf s v
      let cols := if s.prog.grid = 1 then 40 else 32
      let old := (heathAt s h).fault
      let stroke := if s.tick.launched then s.tick.stroke else 0
      let mine : FaultRec :=
        { code := f.flt.code, opcode := if f.flt.instr then bits f.word.toNat 63 56 else 0, vx := v % cols
          vy := v / cols, valid := true, instr := f.flt.instr, pc := f.pc, stroke := stroke, gtc := s.tick.gtc
          detail := f.flt.detail }
      let first := v / cols < old.vy ∨ (v / cols = old.vy ∧
        (v % cols < old.vx ∨ (v % cols = old.vx ∧ f.flt.code < old.code)))
      let t := coreFault s v f
      (coreAt t v).faulted = true ∧ canIssue t v = false ∧ t.prog.phase = .done ∧
      (heathAt t h).fault = (if old.valid = false ∨ (old.gtc = s.tick.gtc ∧ first) then mine else old) ∧
      (heathAt t h).faultCount =
        (if old.valid then min ((heathAt s h).faultCount + 1) 65535 else (heathAt s h).faultCount) ∧
      (∀ g, g ≠ h → (heathAt t g).fault = (heathAt s g).fault) ∧
      (s.tick.stop.valid = false → t.tick.stop.valid = true ∧ t.tick.stop.code = f.flt.code ∧
        t.tick.stop.cause = 5 ∧ t.tick.stop.isLocal = true ∧ t.tick.stop.stroke = stroke)) ∧
    (∀ d, d < 12 → ∃ t, exec (.rimDieLoss d) s = .next t ∧
      { t with die := s.die, hif := s.hif, host := s.host, free := s.free } = s ∧
      t.die.rimLost.getLsbD d = true ∧ t.die.effGrade = 0xF ∧
      ∀ e, e ≠ d → t.die.rimLost.getLsbD e = s.die.rimLost.getLsbD e)

/-- A heath's thermal level rises at 90 °C, falls below 88 °C and is at once 16 at 95 °C, and 100 °C on any sensor
switches the device off, whichever reading shows it; the cap loop rises by one over the cap and falls after four
intervals below 95% of it; PCAP_N floors the level; MCTP sets the cap within its range; the stile raises, lowers and, on a
fault, gives up a heath's voltage, which then runs at level 4 or higher; a late crossing and a droop are counted,
saturating (R174, R176, R475 to R482, R487, R500). That the droops which raised a VID count no more is the model's choice
(log 94), as are the rails' steps (log 19), the telemetry's currents (log 20), the I3C address that the cap is sent to
(log 99) and log 9. -/
def Obligations.TemperaturePowerAndVoltage : Prop :=
  ∀ (s : State),
    (let reads := fun (c : Instr) (h temp level : Nat) =>
       ∃ t, exec c s = .next t ∧ (heathAt t h).therm = level ∧ (heathAt t h).temp = temp ∧
        (∀ g, g ≠ h → heathAt t g = heathAt s g) ∧ t.cores = s.cores
     let hot := fun (c : Instr) (n temp : Nat) =>
      (380 ≤ temp → temp < 400 → n < 48 → reads c n temp 16 ∧
        ∃ t, exec c s = .next t ∧ t.pins.alert = true ∧ t.tick = s.tick) ∧
      (400 ≤ temp → ¬ (s.guard.off = true ∧ s.guard.running = some .powerOff) →
        ∃ t, exec c s = .next t ∧ t.guard.running = some .powerOff ∧ t.guard.off = true ∧
          t.guard.queue = [] ∧ t.pwr.cause = 3 ∧ t.die.d48 = false ∧ t.cores = [] ∧ t.tick.running = false)
     (∀ h temp, h < 48 → (heathAt s h).on = true → temp < 1024 →
      let x := heathAt s h
      (360 ≤ temp → temp < 380 → x.therm < 16 → reads (.thermalLevelRise h temp) h temp (x.therm + 1)) ∧
      (temp < 380 → (temp < 360 ∨ 16 ≤ x.therm) → reads (.thermalLevelRise h temp) h temp x.therm) ∧
      (temp < 352 → 0 < x.therm → reads (.thermalLevelFall h temp) h temp (x.therm - 1)) ∧
      (temp < 380 → (352 ≤ temp ∨ x.therm = 0) → reads (.thermalLevelFall h temp) h temp x.therm) ∧
      hot (.thermalLevelRise h temp) h temp ∧ hot (.thermalLevelFall h temp) h temp) ∧
     (∀ n temp, n < 60 → temp < 1024 → hot (.thermalTrip n temp) n temp ∧
      (n < 48 → temp < 380 → reads (.thermalTrip n temp) n temp (heathAt s n).therm) ∧
      (48 ≤ n → temp < 400 → ∃ t, exec (.thermalTrip n temp) s = .next t ∧
        { t with pwr := s.pwr, pins := s.pins } = s ∧ look 0 t.pwr.rimTemp n = temp))) ∧
    (∀ m : Telemetry, s.die.d48 = true →
      let a := advance s (s.pwr.capAt + 2 ^ 16)
      ∃ t, exec (.powerCapInterval m) s = .next t ∧
        { t with pwr := s.pwr, tick := s.tick, heaths := s.heaths } = s ∧ t.tick = a.tick ∧
        t.pwr.capAt = a.tick.gtc ∧ t.pwr.throttle = throttleNow a ∧ t.pwr.throttleAt = a.tick.gtc ∧
        t.pwr.cap = s.pwr.cap ∧
        (∀ h, h < 48 → heathAt t h = if (heathAt s h).on then
          { heathAt s h with current := m.amps.getD h 0 % 4096 } else heathAt s h) ∧
        (s.pwr.capEn = false → t.pwr = { s.pwr with
          capAt := a.tick.gtc, throttle := throttleNow a, throttleAt := a.tick.gtc }) ∧
        (s.pwr.capEn = true → t.pwr.power = m.watts % 2 ^ 14 ∧
          t.pwr.level = max t.pwr.loop (if s.pins.pcap then min 16 s.pwr.fast else 0) ∧
          (s.pwr.cap < m.watts → t.pwr.loop = min 16 (s.pwr.level + 1) ∧ t.pwr.below = 0 ∧
            t.pwr.unmet = decide (s.pwr.level = 16)) ∧
          (m.watts ≤ s.pwr.cap → t.pwr.unmet = false) ∧
          (m.watts ≤ s.pwr.cap → 100 * m.watts < 95 * s.pwr.cap →
            t.pwr.loop = (if s.pwr.below = 3 then s.pwr.loop - 1 else s.pwr.loop) ∧
            t.pwr.below = if s.pwr.below = 3 then 0 else s.pwr.below + 1) ∧
          (m.watts ≤ s.pwr.cap → 95 * s.pwr.cap ≤ 100 * m.watts →
            t.pwr.loop = s.pwr.loop ∧ t.pwr.below = 0))) ∧
    (∃ t, exec .pcapAssert s = .next t ∧ { t with pwr := s.pwr, pins := s.pins } = s ∧
      t.pins = { s.pins with pcap := true } ∧ t.pwr.level = max s.pwr.loop (min 16 s.pwr.fast)) ∧
    (∃ t, exec .pcapDeassert s = .next t ∧ { t with pwr := s.pwr, pins := s.pins } = s ∧
      t.pins = { s.pins with pcap := false } ∧ t.pwr.level = s.pwr.loop) ∧
    (∀ m : MctpCap,
      (m.addr = 0x30 + s.pins.strap.toNat % 4 → exec (.mctpPowerCap m) s =
        .next { s with pwr := { s.pwr with cap := max 4000 (min 12500 m.watts) } }) ∧
      (m.addr ≠ 0x30 + s.pins.strap.toNat % 4 → exec (.mctpPowerCap m) s = .next s)) ∧
    (∀ h, avsRuns s h = true →
      let x := heathAt s h
      (64 < (x.droops.filter fun d => decide (s.tick.gtc ≤ d + 2 ^ 20)).length →
        let core := max 10 (min 60 (x.railVid + 2))
        ∃ t, exec (.avsVidRaise h) s = .next t ∧ OnlyHeath s t h ∧
          heathAt t h = { x with vid := core, railVid := core, sramVid := max 10 (min 60 (x.sramVid + 2))
                                 droops := [] }) ∧
      (coreVid s h x < x.railVid → ∃ t, exec (.avsVidLower h) s = .next t ∧
        { t with heaths := s.heaths, tick := s.tick } = s ∧ (∀ g, g ≠ h → heathAt t g = heathAt s g) ∧
        heathAt t h = { x with vid := x.railVid - 1, railVid := x.railVid - 1
                               sramVid := max (x.sramVid - 1) (sramTarget s h x), lowerAt := t.tick.gtc } ∧
        t.tick = (advance s (x.lowerAt + 2 ^ 24)).tick) ∧
      (x.railVid ≤ coreVid s h x → exec (.avsVidLower h) s = .next s)) ∧
    (∀ h, h < 48 → ∃ t, exec (.avsFault h) s = .next t ∧ { t with heaths := s.heaths, pwr := s.pwr } = s ∧
      t.pwr = { s.pwr with throttle := throttleNow s, throttleAt := s.tick.gtc } ∧
      heathAt t h = { heathAt s h with avsFault := true, avsHeld := true } ∧ 4 ≤ levelOf t h ∧
      ∀ g, g ≠ h → heathAt t g = heathAt s g) ∧
    exec .crossingLateArrival s =
      .next { s with tick := { s.tick with xingLate := min (s.tick.xingLate + 1) 65535 } } ∧
    (∀ h, h < 48 → ∃ t, exec (.droopDetected h) s = .next t ∧ OnlyHeath s t h ∧
      heathAt t h = { heathAt s h with
        droop := min ((heathAt s h).droop + 1) 65535, droops := (s.tick.gtc :: (heathAt s h).droops).take 65 })

/-! ### Every step -/

/-- A step with a command at the front of the queue is that command on the state with the queue's rest. -/
def Obligations.StepRunsTheFront : Prop :=
  ∀ (s : State) (c : Instr) (rest : List Instr),
    s.pending = c :: rest → step s = exec c { s with pending := rest }

/-- Every command answers a next state, and leaves the queue as it is; on an empty queue a step is one tick
(the model's choices: no command of this model stops, log 1, and an empty queue ticks, log 2). -/
def Obligations.EveryCommandAnswers : Prop :=
  (∀ (s : State) (c : Instr), ∃ t, exec c s = .next t ∧ t.pending = s.pending) ∧
  ∀ s : State, s.pending = [] → step s = .next (tickOnce s) ∧
    (tickOnce s).tick.gtc = (if s.tick.running then s.tick.gtc + 1 else s.tick.gtc) ∧
    { tickOnce s with tick := s.tick } = s

/-- Every step keeps the canonical form of device memory, of host memory and of each plate. The model's own
choices in it: log 66. -/
def Obligations.StepsKeepMemoryForm : Prop :=
  ∀ s t : State, MemoryForm s → step s = .next t → MemoryForm t

/-- At reset every memory has its canonical form. The model's own choices in it: log 66. -/
def Obligations.ResetHasMemoryForm : Prop := MemoryForm State.reset

/-- No step gives back a change of a one-time fuse that was spent, or takes back a revocation (R459, R460).
The model's own choices in it: log 15. -/
def Obligations.FuseChangesOnlyFall : Prop :=
  ∀ s t : State, step s = .next t → FusesSpent s t
end

