-- ==== Sys2Proof/Laws/Dispatch.lean ====
section
/-! SUPPORT. What the dispatcher calls for each command, and what a step does. -/

namespace Sys2Proof.Machine

open Sys2Proof

@[simp] theorem exec_loadTile (v : Nat) (s : State) : exec (.loadTile v) s = execLoadTile v s := rfl
@[simp] theorem exec_stream (v : Nat) (s : State) : exec (.stream v) s = execStream v s := rfl
@[simp] theorem exec_drain (v : Nat) (s : State) : exec (.drain v) s = execDrain v s := rfl
@[simp] theorem exec_accClear (v : Nat) (s : State) : exec (.accClear v) s = execAccClear v s := rfl
@[simp] theorem exec_vmpLoad (v : Nat) (s : State) : exec (.vmpLoad v) s = execVmpLoad v s := rfl
@[simp] theorem exec_vmpStream (v : Nat) (s : State) : exec (.vmpStream v) s = execVmpStream v s := rfl
@[simp] theorem exec_vmpDrain (v : Nat) (s : State) : exec (.vmpDrain v) s = execVmpDrain v s := rfl
@[simp] theorem exec_vmpClear (v : Nat) (s : State) : exec (.vmpClear v) s = execVmpClear v s := rfl
@[simp] theorem exec_vld (v : Nat) (s : State) : exec (.vld v) s = execVld v s := rfl
@[simp] theorem exec_vst (v : Nat) (s : State) : exec (.vst v) s = execVst v s := rfl
@[simp] theorem exec_valu (v : Nat) (s : State) : exec (.valu v) s = execValu v s := rfl
@[simp] theorem exec_vfn (v : Nat) (s : State) : exec (.vfn v) s = execVfn v s := rfl
@[simp] theorem exec_vred (v : Nat) (s : State) : exec (.vred v) s = execVred v s := rfl
@[simp] theorem exec_vmask (v : Nat) (s : State) : exec (.vmask v) s = execVmask v s := rfl
@[simp] theorem exec_vlane (v : Nat) (s : State) : exec (.vlane v) s = execVlane v s := rfl
@[simp] theorem exec_mld (v : Nat) (s : State) : exec (.mld v) s = execMld v s := rfl
@[simp] theorem exec_mst (v : Nat) (s : State) : exec (.mst v) s = execMst v s := rfl
@[simp] theorem exec_nld (v : Nat) (s : State) : exec (.nld v) s = execNld v s := rfl
@[simp] theorem exec_recst (v : Nat) (s : State) : exec (.recst v) s = execRecst v s := rfl
@[simp] theorem exec_dmaRow (v : Nat) (s : State) : exec (.dmaRow v) s = execDmaRow v s := rfl
@[simp] theorem exec_dmaCol (v : Nat) (s : State) : exec (.dmaCol v) s = execDmaCol v s := rfl
@[simp] theorem exec_dmaPressImage (v : Nat) (s : State) : exec (.dmaPressImage v) s = execDmaPressImage v s := rfl
@[simp] theorem exec_dmaMxPack (v : Nat) (s : State) : exec (.dmaMxPack v) s = execDmaMxPack v s := rfl
@[simp] theorem exec_dmaGather (v : Nat) (s : State) : exec (.dmaGather v) s = execDmaGather v s := rfl
@[simp] theorem exec_send (v : Nat) (s : State) : exec (.send v) s = execSend v s := rfl
@[simp] theorem exec_recv (v : Nat) (s : State) : exec (.recv v) s = execRecv v s := rfl
@[simp] theorem exec_mcast (v : Nat) (s : State) : exec (.mcast v) s = execMcast v s := rfl
@[simp] theorem exec_strokeEnd (v : Nat) (s : State) : exec (.strokeEnd v) s = execStrokeEnd v s := rfl
@[simp] theorem exec_wait (v : Nat) (s : State) : exec (.wait v) s = execWait v s := rfl
@[simp] theorem exec_own (v : Nat) (s : State) : exec (.own v) s = execOwn v s := rfl
@[simp] theorem exec_nop (v : Nat) (s : State) : exec (.nop v) s = execNop v s := rfl
@[simp] theorem exec_loop (v : Nat) (s : State) : exec (.loop v) s = execLoop v s := rfl
@[simp] theorem exec_setb (v : Nat) (s : State) : exec (.setb v) s = execSetb v s := rfl
@[simp] theorem exec_addb (v : Nat) (s : State) : exec (.addb v) s = execAddb v s := rfl
@[simp] theorem exec_mop (v : Nat) (s : State) : exec (.mop v) s = execMop v s := rfl
@[simp] theorem exec_halt (v : Nat) (s : State) : exec (.halt v) s = execHalt v s := rfl
@[simp] theorem exec_meshDelivery (v slot : Nat) (src : Source) (s : State) : exec (.meshDelivery v slot src) s = execMeshDelivery v slot src s := rfl
@[simp] theorem exec_recvComplete (v slot : Nat) (s : State) : exec (.recvComplete v slot) s = execRecvComplete v slot s := rfl
@[simp] theorem exec_dmaDescriptorComplete (v eng : Nat) (s : State) : exec (.dmaDescriptorComplete v eng) s = execDmaDescriptorComplete v eng s := rfl
@[simp] theorem exec_coreStrokeEndReached (v : Nat) (s : State) : exec (.coreStrokeEndReached v) s = execCoreStrokeEndReached v s := rfl
@[simp] theorem exec_strokeLaunch (s : State) : exec (.strokeLaunch) s = execStrokeLaunch s := rfl
@[simp] theorem exec_holdPoint (s : State) : exec (.holdPoint) s = execHoldPoint s := rfl
@[simp] theorem exec_decisionTick (s : State) : exec (.decisionTick) s = execDecisionTick s := rfl
@[simp] theorem exec_strokeCommit (s : State) : exec (.strokeCommit) s = execStrokeCommit s := rfl
@[simp] theorem exec_hold (n : Nat) (p : Prio) (s : State) : exec (.hold n p) s = execHold n p s := rfl
@[simp] theorem exec_stop (n : Nat) (p : Prio) (s : State) : exec (.stop n p) s = execStop n p s := rfl
@[simp] theorem exec_launchCancel (n : Nat) (p : Prio) (s : State) : exec (.launchCancel n p) s = execLaunchCancel n p s := rfl
@[simp] theorem exec_beacon (n : Nat) (p : Prio) (s : State) : exec (.beacon n p) s = execBeacon n p s := rfl
@[simp] theorem exec_beaconSend (s : State) : exec (.beaconSend) s = execBeaconSend s := rfl
@[simp] theorem exec_beaconMissed (s : State) : exec (.beaconMissed) s = execBeaconMissed s := rfl
@[simp] theorem exec_coordinatorLaunchStart (s : State) : exec (.coordinatorLaunchStart) s = execCoordinatorLaunchStart s := rfl
@[simp] theorem exec_launchAckDeadline (s : State) : exec (.launchAckDeadline) s = execLaunchAckDeadline s := rfl
@[simp] theorem exec_launchWaitTimeout (s : State) : exec (.launchWaitTimeout) s = execLaunchWaitTimeout s := rfl
@[simp] theorem exec_crossingLateArrival (s : State) : exec (.crossingLateArrival) s = execCrossingLateArrival s := rfl
@[simp] theorem exec_droopDetected (h : Nat) (s : State) : exec (.droopDetected h) s = execDroopDetected h s := rfl
@[simp] theorem exec_patrolScrub (addr : ScrubAt) (overwritten : Bool) (s : State) : exec (.patrolScrub addr overwritten) s = execPatrolScrub addr overwritten s := rfl
@[simp] theorem exec_channelScoreHalving (s : State) : exec (.channelScoreHalving) s = execChannelScoreHalving s := rfl
@[simp] theorem exec_copyOutRemap (d : Nat) (s : State) : exec (.copyOutRemap d) s = execCopyOutRemap d s := rfl
@[simp] theorem exec_granuleRepairComplete (addr : Nat) (bytes : List Byte) (s : State) : exec (.granuleRepairComplete addr bytes) s = execGranuleRepairComplete addr bytes s := rfl
@[simp] theorem exec_registerWrite (off : BarAt) (size : Nat) (value : DWord) (s : State) : exec (.registerWrite off size value) s = execRegisterWrite off size value s := rfl
@[simp] theorem exec_gtcLoRead (size : Nat) (s : State) : exec (.gtcLoRead size) s = execGtcLoRead size s := rfl
@[simp] theorem exec_poisonLogRead (off size : Nat) (s : State) : exec (.poisonLogRead off size) s = execPoisonLogRead off size s := rfl
@[simp] theorem exec_regionEntryWrite (n w : Nat) (value : Word) (s : State) : exec (.regionEntryWrite n w value) s = execRegionEntryWrite n w value s := rfl
@[simp] theorem exec_srvEnable (s : State) : exec (.srvEnable) s = execSrvEnable s := rfl
@[simp] theorem exec_srvDisable (s : State) : exec (.srvDisable) s = execSrvDisable s := rfl
@[simp] theorem exec_srvConfigChange (pageTokens mode : Nat) (s : State) : exec (.srvConfigChange pageTokens mode) s = execSrvConfigChange pageTokens mode s := rfl
@[simp] theorem exec_adapterRegionEnable (units count : Nat) (s : State) : exec (.adapterRegionEnable units count) s = execAdapterRegionEnable units count s := rfl
@[simp] theorem exec_hostRingHeadWrite (impression : Bool) (count : Word) (s : State) : exec (.hostRingHeadWrite impression count) s = execHostRingHeadWrite impression count s := rfl
@[simp] theorem exec_proofRingCopy (s : State) : exec (.proofRingCopy) s = execProofRingCopy s := rfl
@[simp] theorem exec_functionEnable (f : Nat) (pci : FnPci) (table : Fetch) (s : State) : exec (.functionEnable f pci table) s = execFunctionEnable f pci table s := rfl
@[simp] theorem exec_functionDisable (f : Nat) (cause : DisableCause) (s : State) : exec (.functionDisable f cause) s = execFunctionDisable f cause s := rfl
@[simp] theorem exec_flrComplete (f : Nat) (s : State) : exec (.flrComplete f) s = execFlrComplete f s := rfl
@[simp] theorem exec_pf0Flr (s : State) : exec (.pf0Flr) s = execPf0Flr s := rfl
@[simp] theorem exec_lifecycleAdvance (target confirm : Nat) (s : State) : exec (.lifecycleAdvance target confirm) s = execLifecycleAdvance target confirm s := rfl
@[simp] theorem exec_downbin (confirm : Nat) (s : State) : exec (.downbin confirm) s = execDownbin confirm s := rfl
@[simp] theorem exec_spareCommit (confirm : Nat) (s : State) : exec (.spareCommit confirm) s = execSpareCommit confirm s := rfl
@[simp] theorem exec_revokeKey (key confirm : Nat) (s : State) : exec (.revokeKey key confirm) s = execRevokeKey key confirm s := rfl
@[simp] theorem exec_rollbackAdvance (count confirm : Nat) (s : State) : exec (.rollbackAdvance count confirm) s = execRollbackAdvance count confirm s := rfl
@[simp] theorem exec_tickEligToggle (confirm : Nat) (s : State) : exec (.tickEligToggle confirm) s = execTickEligToggle confirm s := rfl
@[simp] theorem exec_debugLock (confirm : Nat) (s : State) : exec (.debugLock confirm) s = execDebugLock confirm s := rfl
@[simp] theorem exec_debugRelock (s : State) : exec (.debugRelock) s = execDebugRelock s := rfl
@[simp] theorem exec_fuseCommandComplete (s : State) : exec (.fuseCommandComplete) s = execFuseCommandComplete s := rfl
@[simp] theorem exec_freeze (path : GuardPath) (s : State) : exec (.freeze path) s = execFreeze path s := rfl
@[simp] theorem exec_fenceAll (path : GuardPath) (s : State) : exec (.fenceAll path) s = execFenceAll path s := rfl
@[simp] theorem exec_hostFlush (path : GuardPath) (s : State) : exec (.hostFlush path) s = execHostFlush path s := rfl
@[simp] theorem exec_dump (path : GuardPath) (s : State) : exec (.dump path) s = execDump path s := rfl
@[simp] theorem exec_heathReset (path : GuardPath) (s : State) : exec (.heathReset path) s = execHeathReset path s := rfl
@[simp] theorem exec_zeroizeKeys (path : GuardPath) (s : State) : exec (.zeroizeKeys path) s = execZeroizeKeys path s := rfl
@[simp] theorem exec_zeroizePlates (path : GuardPath) (s : State) : exec (.zeroizePlates path) s = execZeroizePlates path s := rfl
@[simp] theorem exec_zeroizeDdr (path : GuardPath) (s : State) : exec (.zeroizeDdr path) s = execZeroizeDdr path s := rfl
@[simp] theorem exec_powerOff (path : GuardPath) (s : State) : exec (.powerOff path) s = execPowerOff path s := rfl
@[simp] theorem exec_guardOpComplete (s : State) : exec (.guardOpComplete) s = execGuardOpComplete s := rfl
@[simp] theorem exec_heathControllerTimeout (h : Nat) (recovers : Bool) (s : State) : exec (.heathControllerTimeout h recovers) s = execHeathControllerTimeout h recovers s := rfl
@[simp] theorem exec_linkEnable (n : Nat) (s : State) : exec (.linkEnable n) s = execLinkEnable n s := rfl
@[simp] theorem exec_linkDisable (n : Nat) (s : State) : exec (.linkDisable n) s = execLinkDisable n s := rfl
@[simp] theorem exec_linkFence (n : Nat) (elec : Bool) (s : State) : exec (.linkFence n elec) s = execLinkFence n elec s := rfl
@[simp] theorem exec_linkUnfence (n : Nat) (s : State) : exec (.linkUnfence n) s = execLinkUnfence n s := rfl
@[simp] theorem exec_linkRediscover (n : Nat) (s : State) : exec (.linkRediscover n) s = execLinkRediscover n s := rfl
@[simp] theorem exec_trainingComplete (n : Nat) (failed : BitVec 9) (delay : Nat) (s : State) : exec (.trainingComplete n failed delay) s = execTrainingComplete n failed delay s := rfl
@[simp] theorem exec_trainingTimeout (n : Nat) (s : State) : exec (.trainingTimeout n) s = execTrainingTimeout n s := rfl
@[simp] theorem exec_record (n : Nat) (r : Disc) (s : State) : exec (.record n r) s = execRecord n r s := rfl
@[simp] theorem exec_linkVerdict (n verdict reason : Nat) (s : State) : exec (.linkVerdict n verdict reason) s = execLinkVerdict n verdict reason s := rfl
@[simp] theorem exec_rediscover (n : Nat) (s : State) : exec (.rediscover n) s = execRediscover n s := rfl
@[simp] theorem exec_discoveryRepeat (n : Nat) (s : State) : exec (.discoveryRepeat n) s = execDiscoveryRepeat n s := rfl
@[simp] theorem exec_discoveryTimeout (n : Nat) (s : State) : exec (.discoveryTimeout n) s = execDiscoveryTimeout n s := rfl
@[simp] theorem exec_flitSlotTransmit (n : Nat) (s : State) : exec (.flitSlotTransmit n) s = execFlitSlotTransmit n s := rfl
@[simp] theorem exec_flitReceive (n slot : Nat) (f : RxFlit) (s : State) : exec (.flitReceive n slot f) s = execFlitReceive n slot f s := rfl
@[simp] theorem exec_replayTimerExpiry (n : Nat) (s : State) : exec (.replayTimerExpiry n) s = execReplayTimerExpiry n s := rfl
@[simp] theorem exec_laneLockLoss (n lane : Nat) (s : State) : exec (.laneLockLoss n lane) s = execLaneLockLoss n lane s := rfl
@[simp] theorem exec_retrainComplete (n : Nat) (r : RetrainEnd) (s : State) : exec (.retrainComplete n r) s = execRetrainComplete n r s := rfl
@[simp] theorem exec_portEngineFault (e : Nat) (s : State) : exec (.portEngineFault e) s = execPortEngineFault e s := rfl
@[simp] theorem exec_packetForward (n vc : Nat) (s : State) : exec (.packetForward n vc) s = execPacketForward n vc s := rfl
@[simp] theorem exec_data (p : Packet) (s : State) : exec (.data p) s = execData p s := rfl
@[simp] theorem exec_readReq (p : Packet) (s : State) : exec (.readReq p) s = execReadReq p s := rfl
@[simp] theorem exec_writeReq (p : Packet) (s : State) : exec (.writeReq p) s = execWriteReq p s := rfl
@[simp] theorem exec_readResp (p : Packet) (s : State) : exec (.readResp p) s = execReadResp p s := rfl
@[simp] theorem exec_writeAck (p : Packet) (s : State) : exec (.writeAck p) s = execWriteAck p s := rfl
@[simp] theorem exec_window (p : Packet) (s : State) : exec (.window p) s = execWindow p s := rfl
@[simp] theorem exec_coll (id rank : Nat) (bytes : List Byte) (s : State) : exec (.coll id rank bytes) s = execColl id rank bytes s := rfl
@[simp] theorem exec_requestTimeout (tag : Nat) (s : State) : exec (.requestTimeout tag) s = execRequestTimeout tag s := rfl
@[simp] theorem exec_congestionMapLatch (s : State) : exec (.congestionMapLatch) s = execCongestionMapLatch s := rfl
@[simp] theorem exec_congMap (a : Auth) (map : List Byte) (s : State) : exec (.congMap a map) s = execCongMap a map s := rfl
@[simp] theorem exec_planWrite (a : Auth) (part : PlanPart) (s : State) : exec (.planWrite a part) s = execPlanWrite a part s := rfl
@[simp] theorem exec_planCommit (a : Auth) (digest key : Digest) (s : State) : exec (.planCommit a digest key) s = execPlanCommit a digest key s := rfl
@[simp] theorem exec_teardown (a : Auth) (s : State) : exec (.teardown a) s = execTeardown a s := rfl
@[simp] theorem exec_teardownComplete (s : State) : exec (.teardownComplete) s = execTeardownComplete s := rfl
@[simp] theorem exec_fencePorts (a : Auth) (links : BitVec 36) (elec : Bool) (s : State) : exec (.fencePorts a links elec) s = execFencePorts a links elec s := rfl
@[simp] theorem exec_fenceDevice (a : Auth) (s : State) : exec (.fenceDevice a) s = execFenceDevice a s := rfl
@[simp] theorem exec_unfence (a : Auth) (s : State) : exec (.unfence a) s = execUnfence a s := rfl
@[simp] theorem exec_regRead (a : Auth) (off size : Nat) (s : State) : exec (.regRead a off size) s = execRegRead a off size s := rfl
@[simp] theorem exec_regWrite (a : Auth) (off size : Nat) (value : DWord) (s : State) : exec (.regWrite a off size value) s = execRegWrite a off size value s := rfl
@[simp] theorem exec_response (a : Auth) (status : Nat) (s : State) : exec (.response a status) s = execResponse a status s := rfl
@[simp] theorem exec_launch (a : Auth) (r : LaunchRec) (s : State) : exec (.launch a r) s = execLaunch a r s := rfl
@[simp] theorem exec_launchAnswer (a : Auth) (status : Nat) (s : State) : exec (.launchAnswer a status) s = execLaunchAnswer a status s := rfl
@[simp] theorem exec_abort (a : Auth) (s : State) : exec (.abort a) s = execAbort a s := rfl
@[simp] theorem exec_stopPoint (s : State) : exec (.stopPoint) s = execStopPoint s := rfl
@[simp] theorem exec_ready (a : Auth) (m : ReadyMsg) (s : State) : exec (.ready a m) s = execReady a m s := rfl
@[simp] theorem exec_readyTimeout (s : State) : exec (.readyTimeout) s = execReadyTimeout s := rfl
@[simp] theorem exec_loadLeafReceived (leaf : Nat) (data : FetchBytes) (far : Bool) (s : State) : exec (.loadLeafReceived leaf data far) s = execLoadLeafReceived leaf data far s := rfl
@[simp] theorem exec_verdict (a : Auth) (member status : Nat) (s : State) : exec (.verdict a member status) s = execVerdict a member status s := rfl
@[simp] theorem exec_drained (a : Auth) (member step : Nat) (s : State) : exec (.drained a member step) s = execDrained a member step s := rfl
@[simp] theorem exec_leafHashes (a : Auth) (member first : Nat) (hashes : List Digest) (s : State) : exec (.leafHashes a member first hashes) s = execLeafHashes a member first hashes s := rfl
@[simp] theorem exec_manifest (a : Auth) (bytes : List Byte) (s : State) : exec (.manifest a bytes) s = execManifest a bytes s := rfl
@[simp] theorem exec_pair (a : Auth) (m : PairMsg) (s : State) : exec (.pair a m) s = execPair a m s := rfl
@[simp] theorem exec_pairHeadTimeout (s : State) : exec (.pairHeadTimeout) s = execPairHeadTimeout s := rfl
@[simp] theorem exec_pairBindingTimeout (s : State) : exec (.pairBindingTimeout) s = execPairBindingTimeout s := rfl
@[simp] theorem exec_doorbellSnoop (f r tail : Nat) (head : HeadRead) (s : State) : exec (.doorbellSnoop f r tail head) s = execDoorbellSnoop f r tail head s := rfl
@[simp] theorem exec_doorbellPoll (f r tail : List Nat) (head : List HeadRead) (s : State) : exec (.doorbellPoll f r tail head) s = execDoorbellPoll f r tail head s := rfl
@[simp] theorem exec_submitRequest (f r : Nat) (d : BitVec 512) (args prompt resume : Fetch) (s : State) : exec (.submitRequest f r d args prompt resume) s = execSubmitRequest f r d args prompt resume s := rfl
@[simp] theorem exec_cancel (f r : Nat) (d : BitVec 512) (s : State) : exec (.cancel f r d) s = execCancel f r d s := rfl
@[simp] theorem exec_loadModel (f r : Nat) (d : BitVec 512) (args : Fetch) (s : State) : exec (.loadModel f r d args) s = execLoadModel f r d args s := rfl
@[simp] theorem exec_swapModel (f r : Nat) (d : BitVec 512) (args : Fetch) (s : State) : exec (.swapModel f r d args) s = execSwapModel f r d args s := rfl
@[simp] theorem exec_loadAdapter (f r : Nat) (d : BitVec 512) (args : Fetch) (s : State) : exec (.loadAdapter f r d args) s = execLoadAdapter f r d args s := rfl
@[simp] theorem exec_retireAdapter (f r : Nat) (d : BitVec 512) (s : State) : exec (.retireAdapter f r d) s = execRetireAdapter f r d s := rfl
@[simp] theorem exec_setBudget (f r : Nat) (d : BitVec 512) (s : State) : exec (.setBudget f r d) s = execSetBudget f r d s := rfl
@[simp] theorem exec_launchProgram (f r : Nat) (d : BitVec 512) (args : Fetch) (image : FetchBytes) (s : State) : exec (.launchProgram f r d args image) s = execLaunchProgram f r d args image s := rfl
@[simp] theorem exec_abortProgram (f r : Nat) (d : BitVec 512) (s : State) : exec (.abortProgram f r d) s = execAbortProgram f r d s := rfl
@[simp] theorem exec_query (f r : Nat) (d : QueryDesc) (s : State) : exec (.query f r d) s = execQuery f r d s := rfl
@[simp] theorem exec_imageLoad (s : State) : exec (.imageLoad) s = execImageLoad s := rfl
@[simp] theorem exec_loadPathNext (s : State) : exec (.loadPathNext) s = execLoadPathNext s := rfl
@[simp] theorem exec_adapterWaitTimeout (s : State) : exec (.adapterWaitTimeout) s = execAdapterWaitTimeout s := rfl
@[simp] theorem exec_slotZeroingComplete (n : Nat) (s : State) : exec (.slotZeroingComplete n) s = execSlotZeroingComplete n s := rfl
@[simp] theorem exec_adapterZeroingComplete (n : Nat) (s : State) : exec (.adapterZeroingComplete n) s = execAdapterZeroingComplete n s := rfl
@[simp] theorem exec_pageZeroingComplete (unit : FallowUnit) (s : State) : exec (.pageZeroingComplete unit) s = execPageZeroingComplete unit s := rfl
@[simp] theorem exec_intakeComplete (req : Nat) (s : State) : exec (.intakeComplete req) s = execIntakeComplete req s := rfl
@[simp] theorem exec_boundaryStart (s : State) : exec (.boundaryStart) s = execBoundaryStart s := rfl
@[simp] theorem exec_journalWriteComplete (s : State) : exec (.journalWriteComplete) s = execJournalWriteComplete s := rfl
@[simp] theorem exec_completionRingRoom (f r : Nat) (head : HeadRead) (s : State) : exec (.completionRingRoom f r head) s = execCompletionRingRoom f r head s := rfl
@[simp] theorem exec_eventLost (f : Nat) (head : HeadRead) (s : State) : exec (.eventLost f head) s = execEventLost f head s := rfl
@[simp] theorem exec_interruptCoalesceTimeout (f r : Nat) (s : State) : exec (.interruptCoalesceTimeout f r) s = execInterruptCoalesceTimeout f r s := rfl
@[simp] theorem exec_msixUnmask (f vec : Nat) (s : State) : exec (.msixUnmask f vec) s = execMsixUnmask f vec s := rfl
@[simp] theorem exec_headSign (s : State) : exec (.headSign) s = execHeadSign s := rfl
@[simp] theorem exec_hostSharedAccess (write : Bool) (dpa : Nat) (bytes : List Byte) (s : State) : exec (.hostSharedAccess write dpa bytes) s = execHostSharedAccess write dpa bytes s := rfl
@[simp] theorem exec_spdmRequest (version : Nat) (m : SpdmMsg) (s : State) : exec (.spdmRequest version m) s = execSpdmRequest version m s := rfl
@[simp] theorem exec_keyExchange (session : Nat) (anchor : Digest) (valid : Bool) (s : State) : exec (.keyExchange session anchor valid) s = execKeyExchange session anchor valid s := rfl
@[simp] theorem exec_getMeasurements (index : MeasAsk) (s : State) : exec (.getMeasurements index) s = execGetMeasurements index s := rfl
@[simp] theorem exec_debugTokenSubmit (token : List Byte) (s : State) : exec (.debugTokenSubmit token) s = execDebugTokenSubmit token s := rfl
@[simp] theorem exec_debugUnlockExpiry (s : State) : exec (.debugUnlockExpiry) s = execDebugUnlockExpiry s := rfl
@[simp] theorem exec_stileWatchdogExpiry (upsets : List (Nat × BitVec 72)) (s : State) : exec (.stileWatchdogExpiry upsets) s = execStileWatchdogExpiry upsets s := rfl
@[simp] theorem exec_fwLoad (image : List Byte) (s : State) : exec (.fwLoad image) s = execFwLoad image s := rfl
@[simp] theorem exec_coldReset (strap : BitVec 4) (d49Lost : Bool) (s : State) : exec (.coldReset strap d49Lost) s = execColdReset strap d49Lost s := rfl
@[simp] theorem exec_bootRomStart (slotA slotB : FetchBytes) (s : State) : exec (.bootRomStart slotA slotB) s = execBootRomStart slotA slotB s := rfl
@[simp] theorem exec_bringUpStart (s : State) : exec (.bringUpStart) s = execBringUpStart s := rfl
@[simp] theorem exec_heathSwitchOn (h : Nat) (s : State) : exec (.heathSwitchOn h) s = execHeathSwitchOn h s := rfl
@[simp] theorem exec_powerGoodTimeout (h : Nat) (s : State) : exec (.powerGoodTimeout h) s = execPowerGoodTimeout h s := rfl
@[simp] theorem exec_heathSelfTestDone (h : Nat) (r : SelfTest) (s : State) : exec (.heathSelfTestDone h r) s = execHeathSelfTestDone h r s := rfl
@[simp] theorem exec_channelTrainingDone (c : Nat) (ok : Bool) (s : State) : exec (.channelTrainingDone c ok) s = execChannelTrainingDone c ok s := rfl
@[simp] theorem exec_ddrInitZeroDone (s : State) : exec (.ddrInitZeroDone) s = execDdrInitZeroDone s := rfl
@[simp] theorem exec_warmReset (s : State) : exec (.warmReset) s = execWarmReset s := rfl
@[simp] theorem exec_powerGoodLoss (e : PgEdge) (s : State) : exec (.powerGoodLoss e) s = execPowerGoodLoss e s := rfl
@[simp] theorem exec_refclkLoss (tick : Bool) (s : State) : exec (.refclkLoss tick) s = execRefclkLoss tick s := rfl
@[simp] theorem exec_heathLoss (h cause : Nat) (s : State) : exec (.heathLoss h cause) s = execHeathLoss h cause s := rfl
@[simp] theorem exec_rimDieLoss (d : Nat) (s : State) : exec (.rimDieLoss d) s = execRimDieLoss d s := rfl
@[simp] theorem exec_thermalLevelRise (h temp : Nat) (s : State) : exec (.thermalLevelRise h temp) s = execThermalLevelRise h temp s := rfl
@[simp] theorem exec_thermalLevelFall (h temp : Nat) (s : State) : exec (.thermalLevelFall h temp) s = execThermalLevelFall h temp s := rfl
@[simp] theorem exec_thermalTrip (sensor temp : Nat) (s : State) : exec (.thermalTrip sensor temp) s = execThermalTrip sensor temp s := rfl
@[simp] theorem exec_powerCapInterval (m : Telemetry) (s : State) : exec (.powerCapInterval m) s = execPowerCapInterval m s := rfl
@[simp] theorem exec_pcapAssert (s : State) : exec (.pcapAssert) s = execPcapAssert s := rfl
@[simp] theorem exec_avsVidRaise (h : Nat) (s : State) : exec (.avsVidRaise h) s = execAvsVidRaise h s := rfl
@[simp] theorem exec_avsVidLower (h : Nat) (s : State) : exec (.avsVidLower h) s = execAvsVidLower h s := rfl
@[simp] theorem exec_avsFault (h : Nat) (s : State) : exec (.avsFault h) s = execAvsFault h s := rfl
@[simp] theorem exec_mctpPowerCap (m : MctpCap) (s : State) : exec (.mctpPowerCap m) s = execMctpPowerCap m s := rfl
@[simp] theorem exec_pcapDeassert (s : State) : exec (.pcapDeassert) s = execPcapDeassert s := rfl
@[simp] theorem exec_hostPortLinkTrained (l : HostLink) (s : State) : exec (.hostPortLinkTrained l) s = execHostPortLinkTrained l s := rfl
@[simp] theorem exec_hdmDecoderCommit (s : State) : exec (.hdmDecoderCommit) s = execHdmDecoderCommit s := rfl

/-- An empty queue lets one tick pass. -/
theorem step_empty {s : State} (h : s.pending = []) : step s = .next (tickOnce s) := by
  unfold step; rw [h]

/-- The command at the front of the queue runs. -/
theorem step_front {s : State} {c : Instr} {q : List Instr} (h : s.pending = c :: q) :
    step s = exec c { s with pending := q } := by
  unfold step; rw [h]

end Sys2Proof.Machine
end

