-- ==== Sys2Proof/Laws/FMap.lean ====
section
/-! SUPPORT. The laws of the sparse maps: a read after a write, and the canonical form that every write keeps. -/

namespace Sys2Proof.Machine

open Sys2Proof

variable {α : Type}

@[simp] theorem look_nil (d : α) (k : Nat) : look d [] k = d := rfl

theorem look_drop1_self (d : α) (m : FMap α) (k : Nat) : look d (drop1 m k) k = d := by
  induction m with
  | nil => rfl
  | cons p m ih =>
    obtain ⟨j, v⟩ := p
    by_cases h : j = k <;> simp [drop1, look, h, ih]

theorem look_drop1_ne (d : α) (m : FMap α) {j k : Nat} (h : j ≠ k) :
    look d (drop1 m k) j = look d m j := by
  induction m with
  | nil => rfl
  | cons p m ih =>
    obtain ⟨i, v⟩ := p
    by_cases hk : i = k
    · subst hk; simp [drop1, look, Ne.symm h, ih]
    · by_cases hj : i = j
      · subst hj; simp [drop1, look, hk]
      · simp [drop1, look, hk, hj, ih]

theorem look_ins1_self (d : α) (m : FMap α) (k : Nat) (v : α) : look d (ins1 m k v) k = v := by
  induction m with
  | nil => simp [ins1, look]
  | cons p m ih =>
    obtain ⟨i, w⟩ := p
    unfold ins1
    split
    · simp [look]
    · split
      · simp [look]
      · have : i ≠ k := fun e => by simp_all
        simp [look, this, ih]

theorem look_ins1_ne (d : α) (m : FMap α) {j k : Nat} (v : α) (h : j ≠ k) :
    look d (ins1 m k v) j = look d m j := by
  induction m with
  | nil => simp [ins1, look, Ne.symm h]
  | cons p m ih =>
    obtain ⟨i, w⟩ := p
    unfold ins1
    split
    · simp [look, Ne.symm h]
    · split
      · rename_i e; subst e; simp [look, Ne.symm h]
      · by_cases hj : i = j <;> simp [look, hj, ih]

/-- A read of the key just written gives what was written. -/
@[simp] theorem look_put_self [DecidableEq α] (d : α) (m : FMap α) (k : Nat) (v : α) :
    look d (put d m k v) k = v := by
  unfold put
  split
  · rename_i h; rw [look_drop1_self, h]
  · exact look_ins1_self d m k v

/-- A write leaves every other key alone. -/
theorem look_put_ne [DecidableEq α] (d : α) (m : FMap α) {j k : Nat} (v : α) (h : j ≠ k) :
    look d (put d m k v) j = look d m j := by
  unfold put
  split
  · exact look_drop1_ne d m h
  · exact look_ins1_ne d m v h

/-- What a map holds after one write. -/
theorem look_put [DecidableEq α] (d : α) (m : FMap α) (j k : Nat) (v : α) :
    look d (put d m k v) j = if j = k then v else look d m j := by
  split
  · rename_i h; subst h; simp
  · rename_i h; exact look_put_ne d m v h

theorem putList_length_zero [DecidableEq α] (d : α) (m : FMap α) (k : Nat) : putList d m k [] = m := rfl

/-- What a map holds after writes in a row. -/
theorem look_putList [DecidableEq α] (d : α) (vs : List α) : ∀ (m : FMap α) (k j : Nat),
    look d (putList d m k vs) j = if k ≤ j ∧ j < k + vs.length then vs.getD (j - k) d else look d m j := by
  induction vs with
  | nil => intro m k j; simp [putList, show ¬ (k ≤ j ∧ j < k + 0) by omega]
  | cons v vs ih =>
    intro m k j
    rw [putList, ih, look_put]
    by_cases h : j = k
    · subst h
      simp
    · by_cases h2 : k + 1 ≤ j ∧ j < k + 1 + vs.length
      · obtain ⟨i, rfl⟩ : ∃ i, j = k + 1 + i := ⟨j - (k + 1), by omega⟩
        have e : k + 1 + i - k = i + 1 := by omega
        have e2 : k + 1 + i - (k + 1) = i := by omega
        rw [if_pos h2, if_pos (by simp only [List.length_cons]; omega), e, e2, List.getD_cons_succ]
      · rw [if_neg h2, if_neg h, if_neg (by simp only [List.length_cons]; omega)]

/-- What a map holds after a range is dropped. -/
theorem look_dropRange (d : α) (m : FMap α) (a b j : Nat) :
    look d (dropRange m a b) j = if a ≤ j ∧ j < b then d else look d m j := by
  induction m with
  | nil => simp [dropRange, look]
  | cons p m ih =>
    obtain ⟨i, v⟩ := p
    unfold dropRange at ih ⊢
    rw [List.filter_cons]
    by_cases hi : i < a ∨ b ≤ i
    · rw [if_pos (by simpa using hi)]
      by_cases hj : i = j
      · subst hj; simp [look, show ¬ (a ≤ i ∧ i < b) by omega]
      · simp only [look, hj, if_false]; exact ih
    · rw [if_neg (by simpa using hi)]
      by_cases hj : i = j
      · subst hj; rw [ih]; simp [show a ≤ i ∧ i < b by omega]
      · rw [ih]; simp [look, hj]

/-! ### Members -/

/-- What is listed after a drop was listed before. -/
theorem mem_drop1 {m : FMap α} {k : Nat} {p : Nat × α} (h : p ∈ drop1 m k) : p ∈ m := by
  induction m with
  | nil => exact h
  | cons q m ih =>
    obtain ⟨i, w⟩ := q
    unfold drop1 at h
    split at h
    · exact List.mem_cons_of_mem _ (ih h)
    · rcases List.mem_cons.mp h with e | e
      · exact e ▸ List.mem_cons_self ..
      · exact List.mem_cons_of_mem _ (ih e)

/-- What is listed after an insertion is the entry inserted, or was listed before. -/
theorem mem_ins1 {m : FMap α} {k : Nat} {v : α} {p : Nat × α} (h : p ∈ ins1 m k v) :
    p = (k, v) ∨ p ∈ m := by
  induction m with
  | nil => simpa [ins1] using h
  | cons q m ih =>
    obtain ⟨i, w⟩ := q
    unfold ins1 at h
    split at h
    · rcases List.mem_cons.mp h with e | e
      · exact .inl e
      · exact .inr e
    · split at h
      · rcases List.mem_cons.mp h with e | e
        · exact .inl e
        · exact .inr (List.mem_cons_of_mem _ e)
      · rcases List.mem_cons.mp h with e | e
        · exact .inr (e ▸ List.mem_cons_self ..)
        · rcases ih e with e | e
          · exact .inl e
          · exact .inr (List.mem_cons_of_mem _ e)

/-- What is listed after a write is the entry written, or was listed before. -/
theorem mem_put [DecidableEq α] {d : α} {m : FMap α} {k : Nat} {v : α} {p : Nat × α}
    (h : p ∈ put d m k v) : p = (k, v) ∨ p ∈ m := by
  unfold put at h
  split at h
  · exact .inr (mem_drop1 h)
  · exact mem_ins1 h

/-- An entry of a map is its default or is listed. -/
theorem look_mem (d : α) (m : FMap α) (k : Nat) : look d m k = d ∨ (k, look d m k) ∈ m := by
  induction m with
  | nil => exact .inl rfl
  | cons q m ih =>
    obtain ⟨i, w⟩ := q
    unfold look
    split
    · rename_i h; subst h; exact .inr (List.mem_cons_self ..)
    · rcases ih with e | e
      · exact .inl e
      · exact .inr (List.mem_cons_of_mem _ e)

/-! ### The canonical form -/

theorem keysFrom_le {m : FMap α} {a b : Nat} (h : b ≤ a) (hm : keysFrom a m = true) :
    keysFrom b m = true := by
  cases m with
  | nil => rfl
  | cons p m =>
    obtain ⟨k, v⟩ := p
    simp only [keysFrom, Bool.and_eq_true, decide_eq_true_eq] at hm ⊢
    exact ⟨Nat.le_trans h hm.1, hm.2⟩

theorem keysFrom_filter {m : FMap α} (f : Nat × α → Bool) :
    ∀ {a : Nat}, keysFrom a m = true → keysFrom a (m.filter f) = true := by
  induction m with
  | nil => intro a h; exact h
  | cons p m ih =>
    obtain ⟨k, v⟩ := p
    intro a h
    simp only [keysFrom, Bool.and_eq_true, decide_eq_true_eq] at h
    rw [List.filter_cons]
    split
    · simp only [keysFrom, Bool.and_eq_true, decide_eq_true_eq]
      exact ⟨h.1, ih h.2⟩
    · exact keysFrom_le (by omega) (ih h.2)

theorem drop1_eq_filter (m : FMap α) (k : Nat) : drop1 m k = m.filter fun p => !(p.1 == k) := by
  induction m with
  | nil => rfl
  | cons p m ih =>
    obtain ⟨i, v⟩ := p
    by_cases h : i = k <;> simp [drop1, h, ih]

theorem keysFrom_drop1 {m : FMap α} {a : Nat} (k : Nat) (h : keysFrom a m = true) :
    keysFrom a (drop1 m k) = true := by
  rw [drop1_eq_filter]; exact keysFrom_filter _ h

theorem keysFrom_ins1 {m : FMap α} {k : Nat} {v : α} :
    ∀ {a : Nat}, a ≤ k → keysFrom a m = true → keysFrom a (ins1 m k v) = true := by
  induction m with
  | nil => intro a ha _; simp [ins1, keysFrom, ha]
  | cons p m ih =>
    obtain ⟨i, w⟩ := p
    intro a ha h
    simp only [keysFrom, Bool.and_eq_true, decide_eq_true_eq] at h
    unfold ins1
    split
    · simp only [keysFrom, Bool.and_eq_true, decide_eq_true_eq]
      exact ⟨ha, by omega, h.2⟩
    · split
      · rename_i e; subst e
        simp only [keysFrom, Bool.and_eq_true, decide_eq_true_eq]; exact h
      · simp only [keysFrom, Bool.and_eq_true, decide_eq_true_eq]
        exact ⟨h.1, ih (by omega) h.2⟩

theorem noDefault_iff [DecidableEq α] {d : α} {m : FMap α} :
    noDefault d m = true ↔ ∀ p ∈ m, p.2 ≠ d := by
  induction m with
  | nil => simp [noDefault]
  | cons p m ih =>
    obtain ⟨i, v⟩ := p
    simp only [noDefault, Bool.and_eq_true, decide_eq_true_eq, ih, List.forall_mem_cons]

/-- A map cut down keeps the canonical form. -/
theorem canon_filter [DecidableEq α] {d : α} {m : FMap α} (f : Nat × α → Bool)
    (h : canon d m = true) : canon d (m.filter f) = true := by
  simp only [canon, Bool.and_eq_true, noDefault_iff] at h ⊢
  exact ⟨keysFrom_filter f h.1, fun p hp => h.2 p (List.mem_filter.mp hp).1⟩

/-- A drop keeps the canonical form. -/
theorem canon_drop1 [DecidableEq α] {d : α} {m : FMap α} (k : Nat) (h : canon d m = true) :
    canon d (drop1 m k) = true := by
  rw [drop1_eq_filter]; exact canon_filter _ h

/-- Dropping a range keeps the canonical form. -/
theorem canon_dropRange [DecidableEq α] {d : α} {m : FMap α} (a b : Nat) (h : canon d m = true) :
    canon d (dropRange m a b) = true := canon_filter _ h

/-- Inserting a value other than the default keeps the canonical form. -/
theorem canon_ins1 [DecidableEq α] {d : α} {m : FMap α} (k : Nat) {v : α} (hv : v ≠ d)
    (h : canon d m = true) : canon d (ins1 m k v) = true := by
  simp only [canon, Bool.and_eq_true, noDefault_iff] at h ⊢
  refine ⟨keysFrom_ins1 (Nat.zero_le _) h.1, fun p hp => ?_⟩
  rcases mem_ins1 hp with e | e
  · rw [e]; exact hv
  · exact h.2 p e

/-- A write keeps the canonical form. -/
theorem canon_put [DecidableEq α] {d : α} {m : FMap α} (k : Nat) (v : α) (h : canon d m = true) :
    canon d (put d m k v) = true := by
  unfold put
  split
  · exact canon_drop1 k h
  · rename_i hv; exact canon_ins1 k hv h

/-- Writes in a row keep the canonical form. -/
theorem canon_putList [DecidableEq α] {d : α} (vs : List α) :
    ∀ {m : FMap α} (k : Nat), canon d m = true → canon d (putList d m k vs) = true := by
  induction vs with
  | nil => intro m k h; exact h
  | cons v vs ih => intro m k h; exact ih _ (canon_put k v h)

end Sys2Proof.Machine
end

