-- ==== Sys2Proof/Laws/Memory.lean ====
section
/-! SUPPORT. The canonical form of byte memory, which every memory operation keeps. -/

namespace Sys2Proof.Machine

open Sys2Proof

theorem wf_iff (m : Mem) : m.wf = true ↔ canon 0 m.cells = true ∧ canon 0 m.flips = true := by
  simp [Mem.wf]

/-- The empty memory has the form. -/
theorem wf_empty : Mem.wf {} = true := rfl

/-- A word settled keeps the form. -/
theorem wf_settleWord {m : Mem} (w : Nat) (h : m.wf = true) : (settleWord m w).wf = true := by
  rw [wf_iff] at h
  unfold settleWord
  dsimp only
  split
  · exact (wf_iff m).mpr h
  · split
    · exact (wf_iff m).mpr h
    · exact (wf_iff _).mpr ⟨canon_putList _ _ h.1, canon_drop1 _ h.2⟩

theorem wf_settleWords (ws : List Nat) : ∀ {m : Mem}, m.wf = true → (ws.foldl settleWord m).wf = true := by
  induction ws with
  | nil => intro m h; exact h
  | cons w ws ih => intro m h; exact ih (wf_settleWord w h)

theorem canon_flipsCut {f : FMap (BitVec 72)} (c : Prop) [Decidable c] (a b : Nat) (h : canon 0 f = true) :
    canon 0 (if c then dropRange f a b else f) = true := by
  split
  · exact canon_dropRange a b h
  · exact h

/-- A write keeps the form. -/
theorem wf_memPut {m : Mem} (a : Nat) (bs : List Byte) (h : m.wf = true) : (memPut m a bs).wf = true := by
  have h' := (wf_iff _).mp (wf_settleWords (partWords a bs.length) h)
  exact (wf_iff _).mpr ⟨canon_putList _ _ h'.1, canon_flipsCut _ _ _ h'.2⟩

/-- Zeroing keeps the form. -/
theorem wf_memZero {m : Mem} (a n : Nat) (h : m.wf = true) : (memZero m a n).wf = true := by
  have h' := (wf_iff _).mp (wf_settleWords (partWords a n) h)
  exact (wf_iff _).mpr ⟨canon_dropRange _ _ h'.1, canon_flipsCut _ _ _ h'.2⟩

/-- Poisoning keeps the form. -/
theorem wf_memPoison {m : Mem} (w : Nat) (h : m.wf = true) : (memPoison m w).wf = true := by
  rw [wf_iff] at h
  exact (wf_iff _).mpr ⟨canon_putList _ _ h.1, canon_ins1 _ (by decide) (canon_drop1 _ h.2)⟩

/-- A memory cut down keeps the form. -/
theorem wf_filter {m : Mem} (f : Nat × Byte → Bool) (g : Nat × BitVec 72 → Bool) (h : m.wf = true) :
    Mem.wf { cells := m.cells.filter f, flips := m.flips.filter g } = true := by
  rw [wf_iff] at h
  exact (wf_iff _).mpr ⟨canon_filter _ h.1, canon_filter _ h.2⟩

/-! ### Reads after writes -/

theorem memGet_length (m : Mem) : ∀ (n a : Nat), (memGet m a n).length = n := by
  intro n
  induction n with
  | zero => intro a; rfl
  | succ n ih => intro a; simp [memGet, ih]

theorem memGet_getD (m : Mem) : ∀ (n a i : Nat), i < n → (memGet m a n).getD i 0 = memByte m (a + i) := by
  intro n
  induction n with
  | zero => intro a i h; omega
  | succ n ih =>
    intro a i h
    cases i with
    | zero => simp [memGet]
    | succ i =>
      rw [memGet, List.getD_cons_succ, ih (a + 1) i (by omega)]
      congr 1; omega

/-- A settled word reads as before. -/
theorem memByte_settleWord (m : Mem) (w a : Nat) : memByte (settleWord m w) a = memByte m a := by
  unfold settleWord
  dsimp only
  split
  · rfl
  · split
    · rfl
    · unfold memByte residByte
      dsimp only
      rw [look_putList, memGet_length]
      by_cases h : 8 * w ≤ a ∧ a < 8 * w + 8
      · obtain ⟨i, hi, rfl⟩ : ∃ i, i < 8 ∧ a = 8 * w + i := ⟨a - 8 * w, by omega, by omega⟩
        have e : (8 * w + i) / 8 = w := by omega
        have e2 : 8 * w + i - 8 * w = i := by omega
        rw [if_pos h, e, look_drop1_self, e2, memGet_getD _ _ _ _ hi]
        simp [memByte, residByte, e]
      · rw [if_neg h, look_drop1_ne 0 m.flips (show a / 8 ≠ w by omega)]

theorem memByte_settleWords (ws : List Nat) : ∀ (m : Mem) (a : Nat),
    memByte (ws.foldl settleWord m) a = memByte m a := by
  induction ws with
  | nil => intro m a; rfl
  | cons w ws ih => intro m a; rw [List.foldl_cons, ih, memByte_settleWord]

/-- A write leaves every byte outside it as it reads. -/
theorem memByte_memPut_out (m : Mem) (a : Nat) (bs : List Byte) (x : Nat)
    (h : x < a ∨ a + bs.length ≤ x) : memByte (memPut m a bs) x = memByte m x := by
  rw [← memByte_settleWords (partWords a bs.length) m x]
  unfold memPut
  dsimp only
  generalize (partWords a bs.length).foldl settleWord m = m'
  unfold memByte residByte
  dsimp only
  have hf : look 0 (if wordLo a < wordHi a bs.length then
      dropRange m'.flips (wordLo a) (wordHi a bs.length) else m'.flips) (x / 8) = look 0 m'.flips (x / 8) := by
    split
    · rw [look_dropRange, if_neg]
      unfold wordLo wordHi
      omega
    · rfl
  rw [hf, look_putList, if_neg (by omega)]

/-- Bytes zeroed: every byte outside reads as before. -/
theorem memByte_memZero_out (m : Mem) (a n x : Nat) (h : x < a ∨ a + n ≤ x) :
    memByte (memZero m a n) x = memByte m x := by
  rw [← memByte_settleWords (partWords a n) m x]
  unfold memZero
  dsimp only
  generalize (partWords a n).foldl settleWord m = m'
  unfold memByte residByte
  dsimp only
  have hf : look 0 (if wordLo a < wordHi a n then
      dropRange m'.flips (wordLo a) (wordHi a n) else m'.flips) (x / 8) = look 0 m'.flips (x / 8) := by
    split
    · rw [look_dropRange, if_neg]
      unfold wordLo wordHi
      omega
    · rfl
  rw [hf, look_dropRange, if_neg (by omega)]

/-- The flips of a word after words are settled: gone where it was one of them and not bad. -/
theorem flips_settleWord (m : Mem) (w j : Nat) :
    look 0 (settleWord m w).flips j = if j = w ∧ (eccRead (look 0 m.flips w)).1 ≠ .bad then 0
      else look 0 m.flips j := by
  unfold settleWord
  dsimp only
  split
  · rename_i h
    split
    · rename_i g; rw [g.1, h]
    · rfl
  · split
    · rename_i hb; rw [if_neg (fun g => g.2 hb)]
    · rename_i hb
      dsimp only
      by_cases e : j = w
      · subst e; rw [look_drop1_self, if_pos ⟨rfl, hb⟩]
      · rw [look_drop1_ne _ _ e, if_neg (fun g => e g.1)]

theorem flips_settleWords_zero (ws : List Nat) : ∀ (m : Mem) (j : Nat), look 0 m.flips j = 0 →
    look 0 (ws.foldl settleWord m).flips j = 0 := by
  induction ws with
  | nil => intro m j h; exact h
  | cons w ws ih =>
    intro m j h
    rw [List.foldl_cons]
    apply ih
    rw [flips_settleWord]
    split
    · rfl
    · exact h

theorem flips_settleWords (ws : List Nat) : ∀ (m : Mem) (j : Nat), j ∈ ws →
    (eccRead (look 0 m.flips j)).1 ≠ .bad → look 0 (ws.foldl settleWord m).flips j = 0 := by
  induction ws with
  | nil => intro m j h; simp at h
  | cons w ws ih =>
    intro m j h hb
    rw [List.foldl_cons]
    by_cases e : j = w
    · subst e
      apply flips_settleWords_zero
      rw [flips_settleWord, if_pos ⟨rfl, hb⟩]
    · apply ih
      · rcases List.mem_cons.mp h with g | g
        · exact absurd g e
        · exact g
      · rw [flips_settleWord, if_neg (fun g => e g.1)]; exact hb

/-- A byte written reads as written, unless its word is only partly covered and is uncorrectable. -/
theorem memByte_memPut_in (m : Mem) (a : Nat) (bs : List Byte) (i : Nat) (hi : i < bs.length)
    (h : (a + i) / 8 ∈ partWords a bs.length → (eccRead (look 0 m.flips ((a + i) / 8))).1 ≠ .bad) :
    memByte (memPut m a bs) (a + i) = bs.getD i 0 := by
  unfold memPut
  dsimp only
  unfold memByte residByte
  dsimp only
  have hf : look 0 (if wordLo a < wordHi a bs.length then
      dropRange ((partWords a bs.length).foldl settleWord m).flips (wordLo a) (wordHi a bs.length)
      else ((partWords a bs.length).foldl settleWord m).flips) ((a + i) / 8) = 0 := by
    by_cases hp : (a + i) / 8 ∈ partWords a bs.length
    · have hz := flips_settleWords _ m _ hp (h hp)
      split
      · rw [look_dropRange]
        split
        · rfl
        · exact hz
      · exact hz
    · have hw : wordLo a ≤ (a + i) / 8 ∧ (a + i) / 8 < wordHi a bs.length := by
        unfold partWords at hp
        rw [if_neg (by omega)] at hp
        simp only [List.mem_append, not_or] at hp
        obtain ⟨h1, h2⟩ := hp
        unfold wordLo wordHi
        split at h1 <;> split at h2 <;> simp at h1 h2 <;> omega
      rw [if_pos (by omega), look_dropRange, if_pos hw]
  rw [hf, look_putList, if_pos (by omega)]
  simp

end Sys2Proof.Machine
end

