-- ==== Sys2Proof/Laws/State.lean ====
section
/-! SUPPORT. What each named update of the state leaves as it was, field by field, and what a read of a part gives after a write of a part. -/

namespace Sys2Proof.Machine

open Sys2Proof

/-! ### setCore -/

@[simp] theorem setCore_pending (s : State) (v : Nat) (c : Core) : (setCore s v c).pending = s.pending := (rfl)
@[simp] theorem setCore_free (s : State) (v : Nat) (c : Core) : (setCore s v c).free = s.free := (rfl)
@[simp] theorem setCore_readData (s : State) (v : Nat) (c : Core) : (setCore s v c).readData = s.readData := (rfl)
@[simp] theorem setCore_die (s : State) (v : Nat) (c : Core) : (setCore s v c).die = s.die := (rfl)
@[simp] theorem setCore_heaths (s : State) (v : Nat) (c : Core) : (setCore s v c).heaths = s.heaths := (rfl)
@[simp] theorem setCore_memory (s : State) (v : Nat) (c : Core) : (setCore s v c).memory = s.memory := (rfl)
@[simp] theorem setCore_host (s : State) (v : Nat) (c : Core) : (setCore s v c).host = s.host := (rfl)
@[simp] theorem setCore_tick (s : State) (v : Nat) (c : Core) : (setCore s v c).tick = s.tick := (rfl)
@[simp] theorem setCore_prog (s : State) (v : Nat) (c : Core) : (setCore s v c).prog = s.prog := (rfl)
@[simp] theorem setCore_transit (s : State) (v : Nat) (c : Core) : (setCore s v c).transit = s.transit := (rfl)
@[simp] theorem setCore_srv (s : State) (v : Nat) (c : Core) : (setCore s v c).srv = s.srv := (rfl)
@[simp] theorem setCore_load (s : State) (v : Nat) (c : Core) : (setCore s v c).load = s.load := (rfl)
@[simp] theorem setCore_proofs (s : State) (v : Nat) (c : Core) : (setCore s v c).proofs = s.proofs := (rfl)
@[simp] theorem setCore_links (s : State) (v : Nat) (c : Core) : (setCore s v c).links = s.links := (rfl)
@[simp] theorem setCore_fab (s : State) (v : Nat) (c : Core) : (setCore s v c).fab = s.fab := (rfl)
@[simp] theorem setCore_hif (s : State) (v : Nat) (c : Core) : (setCore s v c).hif = s.hif := (rfl)
@[simp] theorem setCore_lcf (s : State) (v : Nat) (c : Core) : (setCore s v c).lcf = s.lcf := (rfl)
@[simp] theorem setCore_stl (s : State) (v : Nat) (c : Core) : (setCore s v c).stl = s.stl := (rfl)
@[simp] theorem setCore_guard (s : State) (v : Nat) (c : Core) : (setCore s v c).guard = s.guard := (rfl)
@[simp] theorem setCore_pwr (s : State) (v : Nat) (c : Core) : (setCore s v c).pwr = s.pwr := (rfl)
@[simp] theorem setCore_pins (s : State) (v : Nat) (c : Core) : (setCore s v c).pins = s.pins := (rfl)

/-! ### setHeath -/

@[simp] theorem setHeath_pending (s : State) (h : Nat) (x : Heath) : (setHeath s h x).pending = s.pending := (rfl)
@[simp] theorem setHeath_free (s : State) (h : Nat) (x : Heath) : (setHeath s h x).free = s.free := (rfl)
@[simp] theorem setHeath_readData (s : State) (h : Nat) (x : Heath) : (setHeath s h x).readData = s.readData := (rfl)
@[simp] theorem setHeath_die (s : State) (h : Nat) (x : Heath) : (setHeath s h x).die = s.die := (rfl)
@[simp] theorem setHeath_memory (s : State) (h : Nat) (x : Heath) : (setHeath s h x).memory = s.memory := (rfl)
@[simp] theorem setHeath_host (s : State) (h : Nat) (x : Heath) : (setHeath s h x).host = s.host := (rfl)
@[simp] theorem setHeath_tick (s : State) (h : Nat) (x : Heath) : (setHeath s h x).tick = s.tick := (rfl)
@[simp] theorem setHeath_prog (s : State) (h : Nat) (x : Heath) : (setHeath s h x).prog = s.prog := (rfl)
@[simp] theorem setHeath_cores (s : State) (h : Nat) (x : Heath) : (setHeath s h x).cores = s.cores := (rfl)
@[simp] theorem setHeath_transit (s : State) (h : Nat) (x : Heath) : (setHeath s h x).transit = s.transit := (rfl)
@[simp] theorem setHeath_srv (s : State) (h : Nat) (x : Heath) : (setHeath s h x).srv = s.srv := (rfl)
@[simp] theorem setHeath_load (s : State) (h : Nat) (x : Heath) : (setHeath s h x).load = s.load := (rfl)
@[simp] theorem setHeath_proofs (s : State) (h : Nat) (x : Heath) : (setHeath s h x).proofs = s.proofs := (rfl)
@[simp] theorem setHeath_links (s : State) (h : Nat) (x : Heath) : (setHeath s h x).links = s.links := (rfl)
@[simp] theorem setHeath_fab (s : State) (h : Nat) (x : Heath) : (setHeath s h x).fab = s.fab := (rfl)
@[simp] theorem setHeath_hif (s : State) (h : Nat) (x : Heath) : (setHeath s h x).hif = s.hif := (rfl)
@[simp] theorem setHeath_lcf (s : State) (h : Nat) (x : Heath) : (setHeath s h x).lcf = s.lcf := (rfl)
@[simp] theorem setHeath_stl (s : State) (h : Nat) (x : Heath) : (setHeath s h x).stl = s.stl := (rfl)
@[simp] theorem setHeath_guard (s : State) (h : Nat) (x : Heath) : (setHeath s h x).guard = s.guard := (rfl)
@[simp] theorem setHeath_pwr (s : State) (h : Nat) (x : Heath) : (setHeath s h x).pwr = s.pwr := (rfl)
@[simp] theorem setHeath_pins (s : State) (h : Nat) (x : Heath) : (setHeath s h x).pins = s.pins := (rfl)

/-! ### setLink -/

@[simp] theorem setLink_pending (s : State) (n : Nat) (l : Link) : (setLink s n l).pending = s.pending := (rfl)
@[simp] theorem setLink_free (s : State) (n : Nat) (l : Link) : (setLink s n l).free = s.free := (rfl)
@[simp] theorem setLink_readData (s : State) (n : Nat) (l : Link) : (setLink s n l).readData = s.readData := (rfl)
@[simp] theorem setLink_die (s : State) (n : Nat) (l : Link) : (setLink s n l).die = s.die := (rfl)
@[simp] theorem setLink_heaths (s : State) (n : Nat) (l : Link) : (setLink s n l).heaths = s.heaths := (rfl)
@[simp] theorem setLink_memory (s : State) (n : Nat) (l : Link) : (setLink s n l).memory = s.memory := (rfl)
@[simp] theorem setLink_host (s : State) (n : Nat) (l : Link) : (setLink s n l).host = s.host := (rfl)
@[simp] theorem setLink_tick (s : State) (n : Nat) (l : Link) : (setLink s n l).tick = s.tick := (rfl)
@[simp] theorem setLink_prog (s : State) (n : Nat) (l : Link) : (setLink s n l).prog = s.prog := (rfl)
@[simp] theorem setLink_cores (s : State) (n : Nat) (l : Link) : (setLink s n l).cores = s.cores := (rfl)
@[simp] theorem setLink_transit (s : State) (n : Nat) (l : Link) : (setLink s n l).transit = s.transit := (rfl)
@[simp] theorem setLink_srv (s : State) (n : Nat) (l : Link) : (setLink s n l).srv = s.srv := (rfl)
@[simp] theorem setLink_load (s : State) (n : Nat) (l : Link) : (setLink s n l).load = s.load := (rfl)
@[simp] theorem setLink_proofs (s : State) (n : Nat) (l : Link) : (setLink s n l).proofs = s.proofs := (rfl)
@[simp] theorem setLink_fab (s : State) (n : Nat) (l : Link) : (setLink s n l).fab = s.fab := (rfl)
@[simp] theorem setLink_hif (s : State) (n : Nat) (l : Link) : (setLink s n l).hif = s.hif := (rfl)
@[simp] theorem setLink_lcf (s : State) (n : Nat) (l : Link) : (setLink s n l).lcf = s.lcf := (rfl)
@[simp] theorem setLink_stl (s : State) (n : Nat) (l : Link) : (setLink s n l).stl = s.stl := (rfl)
@[simp] theorem setLink_guard (s : State) (n : Nat) (l : Link) : (setLink s n l).guard = s.guard := (rfl)
@[simp] theorem setLink_pwr (s : State) (n : Nat) (l : Link) : (setLink s n l).pwr = s.pwr := (rfl)
@[simp] theorem setLink_pins (s : State) (n : Nat) (l : Link) : (setLink s n l).pins = s.pins := (rfl)

/-! ### setFn -/

@[simp] theorem setFn_pending (s : State) (f : Nat) (x : Fn) : (setFn s f x).pending = s.pending := (rfl)
@[simp] theorem setFn_free (s : State) (f : Nat) (x : Fn) : (setFn s f x).free = s.free := (rfl)
@[simp] theorem setFn_readData (s : State) (f : Nat) (x : Fn) : (setFn s f x).readData = s.readData := (rfl)
@[simp] theorem setFn_die (s : State) (f : Nat) (x : Fn) : (setFn s f x).die = s.die := (rfl)
@[simp] theorem setFn_heaths (s : State) (f : Nat) (x : Fn) : (setFn s f x).heaths = s.heaths := (rfl)
@[simp] theorem setFn_memory (s : State) (f : Nat) (x : Fn) : (setFn s f x).memory = s.memory := (rfl)
@[simp] theorem setFn_host (s : State) (f : Nat) (x : Fn) : (setFn s f x).host = s.host := (rfl)
@[simp] theorem setFn_tick (s : State) (f : Nat) (x : Fn) : (setFn s f x).tick = s.tick := (rfl)
@[simp] theorem setFn_prog (s : State) (f : Nat) (x : Fn) : (setFn s f x).prog = s.prog := (rfl)
@[simp] theorem setFn_cores (s : State) (f : Nat) (x : Fn) : (setFn s f x).cores = s.cores := (rfl)
@[simp] theorem setFn_transit (s : State) (f : Nat) (x : Fn) : (setFn s f x).transit = s.transit := (rfl)
@[simp] theorem setFn_srv (s : State) (f : Nat) (x : Fn) : (setFn s f x).srv = s.srv := (rfl)
@[simp] theorem setFn_load (s : State) (f : Nat) (x : Fn) : (setFn s f x).load = s.load := (rfl)
@[simp] theorem setFn_proofs (s : State) (f : Nat) (x : Fn) : (setFn s f x).proofs = s.proofs := (rfl)
@[simp] theorem setFn_links (s : State) (f : Nat) (x : Fn) : (setFn s f x).links = s.links := (rfl)
@[simp] theorem setFn_fab (s : State) (f : Nat) (x : Fn) : (setFn s f x).fab = s.fab := (rfl)
@[simp] theorem setFn_lcf (s : State) (f : Nat) (x : Fn) : (setFn s f x).lcf = s.lcf := (rfl)
@[simp] theorem setFn_stl (s : State) (f : Nat) (x : Fn) : (setFn s f x).stl = s.stl := (rfl)
@[simp] theorem setFn_guard (s : State) (f : Nat) (x : Fn) : (setFn s f x).guard = s.guard := (rfl)
@[simp] theorem setFn_pwr (s : State) (f : Nat) (x : Fn) : (setFn s f x).pwr = s.pwr := (rfl)
@[simp] theorem setFn_pins (s : State) (f : Nat) (x : Fn) : (setFn s f x).pins = s.pins := (rfl)

/-! ### setChan -/

@[simp] theorem setChan_pending (s : State) (c : Nat) (x : Chan) : (setChan s c x).pending = s.pending := (rfl)
@[simp] theorem setChan_free (s : State) (c : Nat) (x : Chan) : (setChan s c x).free = s.free := (rfl)
@[simp] theorem setChan_readData (s : State) (c : Nat) (x : Chan) : (setChan s c x).readData = s.readData := (rfl)
@[simp] theorem setChan_die (s : State) (c : Nat) (x : Chan) : (setChan s c x).die = s.die := (rfl)
@[simp] theorem setChan_heaths (s : State) (c : Nat) (x : Chan) : (setChan s c x).heaths = s.heaths := (rfl)
@[simp] theorem setChan_host (s : State) (c : Nat) (x : Chan) : (setChan s c x).host = s.host := (rfl)
@[simp] theorem setChan_tick (s : State) (c : Nat) (x : Chan) : (setChan s c x).tick = s.tick := (rfl)
@[simp] theorem setChan_prog (s : State) (c : Nat) (x : Chan) : (setChan s c x).prog = s.prog := (rfl)
@[simp] theorem setChan_cores (s : State) (c : Nat) (x : Chan) : (setChan s c x).cores = s.cores := (rfl)
@[simp] theorem setChan_transit (s : State) (c : Nat) (x : Chan) : (setChan s c x).transit = s.transit := (rfl)
@[simp] theorem setChan_srv (s : State) (c : Nat) (x : Chan) : (setChan s c x).srv = s.srv := (rfl)
@[simp] theorem setChan_load (s : State) (c : Nat) (x : Chan) : (setChan s c x).load = s.load := (rfl)
@[simp] theorem setChan_proofs (s : State) (c : Nat) (x : Chan) : (setChan s c x).proofs = s.proofs := (rfl)
@[simp] theorem setChan_links (s : State) (c : Nat) (x : Chan) : (setChan s c x).links = s.links := (rfl)
@[simp] theorem setChan_fab (s : State) (c : Nat) (x : Chan) : (setChan s c x).fab = s.fab := (rfl)
@[simp] theorem setChan_hif (s : State) (c : Nat) (x : Chan) : (setChan s c x).hif = s.hif := (rfl)
@[simp] theorem setChan_lcf (s : State) (c : Nat) (x : Chan) : (setChan s c x).lcf = s.lcf := (rfl)
@[simp] theorem setChan_stl (s : State) (c : Nat) (x : Chan) : (setChan s c x).stl = s.stl := (rfl)
@[simp] theorem setChan_guard (s : State) (c : Nat) (x : Chan) : (setChan s c x).guard = s.guard := (rfl)
@[simp] theorem setChan_pwr (s : State) (c : Nat) (x : Chan) : (setChan s c x).pwr = s.pwr := (rfl)
@[simp] theorem setChan_pins (s : State) (c : Nat) (x : Chan) : (setChan s c x).pins = s.pins := (rfl)

/-! ### setSpare -/

@[simp] theorem setSpare_pending (s : State) (d : Nat) (x : Spare) : (setSpare s d x).pending = s.pending := (rfl)
@[simp] theorem setSpare_free (s : State) (d : Nat) (x : Spare) : (setSpare s d x).free = s.free := (rfl)
@[simp] theorem setSpare_readData (s : State) (d : Nat) (x : Spare) : (setSpare s d x).readData = s.readData := (rfl)
@[simp] theorem setSpare_die (s : State) (d : Nat) (x : Spare) : (setSpare s d x).die = s.die := (rfl)
@[simp] theorem setSpare_heaths (s : State) (d : Nat) (x : Spare) : (setSpare s d x).heaths = s.heaths := (rfl)
@[simp] theorem setSpare_host (s : State) (d : Nat) (x : Spare) : (setSpare s d x).host = s.host := (rfl)
@[simp] theorem setSpare_tick (s : State) (d : Nat) (x : Spare) : (setSpare s d x).tick = s.tick := (rfl)
@[simp] theorem setSpare_prog (s : State) (d : Nat) (x : Spare) : (setSpare s d x).prog = s.prog := (rfl)
@[simp] theorem setSpare_cores (s : State) (d : Nat) (x : Spare) : (setSpare s d x).cores = s.cores := (rfl)
@[simp] theorem setSpare_transit (s : State) (d : Nat) (x : Spare) : (setSpare s d x).transit = s.transit := (rfl)
@[simp] theorem setSpare_srv (s : State) (d : Nat) (x : Spare) : (setSpare s d x).srv = s.srv := (rfl)
@[simp] theorem setSpare_load (s : State) (d : Nat) (x : Spare) : (setSpare s d x).load = s.load := (rfl)
@[simp] theorem setSpare_proofs (s : State) (d : Nat) (x : Spare) : (setSpare s d x).proofs = s.proofs := (rfl)
@[simp] theorem setSpare_links (s : State) (d : Nat) (x : Spare) : (setSpare s d x).links = s.links := (rfl)
@[simp] theorem setSpare_fab (s : State) (d : Nat) (x : Spare) : (setSpare s d x).fab = s.fab := (rfl)
@[simp] theorem setSpare_hif (s : State) (d : Nat) (x : Spare) : (setSpare s d x).hif = s.hif := (rfl)
@[simp] theorem setSpare_lcf (s : State) (d : Nat) (x : Spare) : (setSpare s d x).lcf = s.lcf := (rfl)
@[simp] theorem setSpare_stl (s : State) (d : Nat) (x : Spare) : (setSpare s d x).stl = s.stl := (rfl)
@[simp] theorem setSpare_guard (s : State) (d : Nat) (x : Spare) : (setSpare s d x).guard = s.guard := (rfl)
@[simp] theorem setSpare_pwr (s : State) (d : Nat) (x : Spare) : (setSpare s d x).pwr = s.pwr := (rfl)
@[simp] theorem setSpare_pins (s : State) (d : Nat) (x : Spare) : (setSpare s d x).pins = s.pins := (rfl)

/-! ### setDdr -/

@[simp] theorem setDdr_pending (s : State) (m : Mem) : (setDdr s m).pending = s.pending := (rfl)
@[simp] theorem setDdr_free (s : State) (m : Mem) : (setDdr s m).free = s.free := (rfl)
@[simp] theorem setDdr_readData (s : State) (m : Mem) : (setDdr s m).readData = s.readData := (rfl)
@[simp] theorem setDdr_die (s : State) (m : Mem) : (setDdr s m).die = s.die := (rfl)
@[simp] theorem setDdr_heaths (s : State) (m : Mem) : (setDdr s m).heaths = s.heaths := (rfl)
@[simp] theorem setDdr_host (s : State) (m : Mem) : (setDdr s m).host = s.host := (rfl)
@[simp] theorem setDdr_tick (s : State) (m : Mem) : (setDdr s m).tick = s.tick := (rfl)
@[simp] theorem setDdr_prog (s : State) (m : Mem) : (setDdr s m).prog = s.prog := (rfl)
@[simp] theorem setDdr_cores (s : State) (m : Mem) : (setDdr s m).cores = s.cores := (rfl)
@[simp] theorem setDdr_transit (s : State) (m : Mem) : (setDdr s m).transit = s.transit := (rfl)
@[simp] theorem setDdr_srv (s : State) (m : Mem) : (setDdr s m).srv = s.srv := (rfl)
@[simp] theorem setDdr_load (s : State) (m : Mem) : (setDdr s m).load = s.load := (rfl)
@[simp] theorem setDdr_proofs (s : State) (m : Mem) : (setDdr s m).proofs = s.proofs := (rfl)
@[simp] theorem setDdr_links (s : State) (m : Mem) : (setDdr s m).links = s.links := (rfl)
@[simp] theorem setDdr_fab (s : State) (m : Mem) : (setDdr s m).fab = s.fab := (rfl)
@[simp] theorem setDdr_hif (s : State) (m : Mem) : (setDdr s m).hif = s.hif := (rfl)
@[simp] theorem setDdr_lcf (s : State) (m : Mem) : (setDdr s m).lcf = s.lcf := (rfl)
@[simp] theorem setDdr_stl (s : State) (m : Mem) : (setDdr s m).stl = s.stl := (rfl)
@[simp] theorem setDdr_guard (s : State) (m : Mem) : (setDdr s m).guard = s.guard := (rfl)
@[simp] theorem setDdr_pwr (s : State) (m : Mem) : (setDdr s m).pwr = s.pwr := (rfl)
@[simp] theorem setDdr_pins (s : State) (m : Mem) : (setDdr s m).pins = s.pins := (rfl)

/-! ### setReq -/

@[simp] theorem setReq_pending (s : State) (i : Nat) (r : Req) : (setReq s i r).pending = s.pending := (rfl)
@[simp] theorem setReq_free (s : State) (i : Nat) (r : Req) : (setReq s i r).free = s.free := (rfl)
@[simp] theorem setReq_readData (s : State) (i : Nat) (r : Req) : (setReq s i r).readData = s.readData := (rfl)
@[simp] theorem setReq_die (s : State) (i : Nat) (r : Req) : (setReq s i r).die = s.die := (rfl)
@[simp] theorem setReq_heaths (s : State) (i : Nat) (r : Req) : (setReq s i r).heaths = s.heaths := (rfl)
@[simp] theorem setReq_memory (s : State) (i : Nat) (r : Req) : (setReq s i r).memory = s.memory := (rfl)
@[simp] theorem setReq_host (s : State) (i : Nat) (r : Req) : (setReq s i r).host = s.host := (rfl)
@[simp] theorem setReq_tick (s : State) (i : Nat) (r : Req) : (setReq s i r).tick = s.tick := (rfl)
@[simp] theorem setReq_prog (s : State) (i : Nat) (r : Req) : (setReq s i r).prog = s.prog := (rfl)
@[simp] theorem setReq_cores (s : State) (i : Nat) (r : Req) : (setReq s i r).cores = s.cores := (rfl)
@[simp] theorem setReq_transit (s : State) (i : Nat) (r : Req) : (setReq s i r).transit = s.transit := (rfl)
@[simp] theorem setReq_load (s : State) (i : Nat) (r : Req) : (setReq s i r).load = s.load := (rfl)
@[simp] theorem setReq_proofs (s : State) (i : Nat) (r : Req) : (setReq s i r).proofs = s.proofs := (rfl)
@[simp] theorem setReq_links (s : State) (i : Nat) (r : Req) : (setReq s i r).links = s.links := (rfl)
@[simp] theorem setReq_fab (s : State) (i : Nat) (r : Req) : (setReq s i r).fab = s.fab := (rfl)
@[simp] theorem setReq_hif (s : State) (i : Nat) (r : Req) : (setReq s i r).hif = s.hif := (rfl)
@[simp] theorem setReq_lcf (s : State) (i : Nat) (r : Req) : (setReq s i r).lcf = s.lcf := (rfl)
@[simp] theorem setReq_stl (s : State) (i : Nat) (r : Req) : (setReq s i r).stl = s.stl := (rfl)
@[simp] theorem setReq_guard (s : State) (i : Nat) (r : Req) : (setReq s i r).guard = s.guard := (rfl)
@[simp] theorem setReq_pwr (s : State) (i : Nat) (r : Req) : (setReq s i r).pwr = s.pwr := (rfl)
@[simp] theorem setReq_pins (s : State) (i : Nat) (r : Req) : (setReq s i r).pins = s.pins := (rfl)

/-! ### setTenant -/

@[simp] theorem setTenant_pending (s : State) (i : Nat) (t : Tenant) : (setTenant s i t).pending = s.pending := (rfl)
@[simp] theorem setTenant_free (s : State) (i : Nat) (t : Tenant) : (setTenant s i t).free = s.free := (rfl)
@[simp] theorem setTenant_readData (s : State) (i : Nat) (t : Tenant) : (setTenant s i t).readData = s.readData := (rfl)
@[simp] theorem setTenant_die (s : State) (i : Nat) (t : Tenant) : (setTenant s i t).die = s.die := (rfl)
@[simp] theorem setTenant_heaths (s : State) (i : Nat) (t : Tenant) : (setTenant s i t).heaths = s.heaths := (rfl)
@[simp] theorem setTenant_memory (s : State) (i : Nat) (t : Tenant) : (setTenant s i t).memory = s.memory := (rfl)
@[simp] theorem setTenant_host (s : State) (i : Nat) (t : Tenant) : (setTenant s i t).host = s.host := (rfl)
@[simp] theorem setTenant_tick (s : State) (i : Nat) (t : Tenant) : (setTenant s i t).tick = s.tick := (rfl)
@[simp] theorem setTenant_prog (s : State) (i : Nat) (t : Tenant) : (setTenant s i t).prog = s.prog := (rfl)
@[simp] theorem setTenant_cores (s : State) (i : Nat) (t : Tenant) : (setTenant s i t).cores = s.cores := (rfl)
@[simp] theorem setTenant_transit (s : State) (i : Nat) (t : Tenant) : (setTenant s i t).transit = s.transit := (rfl)
@[simp] theorem setTenant_load (s : State) (i : Nat) (t : Tenant) : (setTenant s i t).load = s.load := (rfl)
@[simp] theorem setTenant_proofs (s : State) (i : Nat) (t : Tenant) : (setTenant s i t).proofs = s.proofs := (rfl)
@[simp] theorem setTenant_links (s : State) (i : Nat) (t : Tenant) : (setTenant s i t).links = s.links := (rfl)
@[simp] theorem setTenant_fab (s : State) (i : Nat) (t : Tenant) : (setTenant s i t).fab = s.fab := (rfl)
@[simp] theorem setTenant_hif (s : State) (i : Nat) (t : Tenant) : (setTenant s i t).hif = s.hif := (rfl)
@[simp] theorem setTenant_lcf (s : State) (i : Nat) (t : Tenant) : (setTenant s i t).lcf = s.lcf := (rfl)
@[simp] theorem setTenant_stl (s : State) (i : Nat) (t : Tenant) : (setTenant s i t).stl = s.stl := (rfl)
@[simp] theorem setTenant_guard (s : State) (i : Nat) (t : Tenant) : (setTenant s i t).guard = s.guard := (rfl)
@[simp] theorem setTenant_pwr (s : State) (i : Nat) (t : Tenant) : (setTenant s i t).pwr = s.pwr := (rfl)
@[simp] theorem setTenant_pins (s : State) (i : Nat) (t : Tenant) : (setTenant s i t).pins = s.pins := (rfl)

/-! ### setSlot -/

@[simp] theorem setSlot_pending (s : State) (i : Nat) (x : Slot) : (setSlot s i x).pending = s.pending := (rfl)
@[simp] theorem setSlot_free (s : State) (i : Nat) (x : Slot) : (setSlot s i x).free = s.free := (rfl)
@[simp] theorem setSlot_readData (s : State) (i : Nat) (x : Slot) : (setSlot s i x).readData = s.readData := (rfl)
@[simp] theorem setSlot_die (s : State) (i : Nat) (x : Slot) : (setSlot s i x).die = s.die := (rfl)
@[simp] theorem setSlot_heaths (s : State) (i : Nat) (x : Slot) : (setSlot s i x).heaths = s.heaths := (rfl)
@[simp] theorem setSlot_memory (s : State) (i : Nat) (x : Slot) : (setSlot s i x).memory = s.memory := (rfl)
@[simp] theorem setSlot_host (s : State) (i : Nat) (x : Slot) : (setSlot s i x).host = s.host := (rfl)
@[simp] theorem setSlot_tick (s : State) (i : Nat) (x : Slot) : (setSlot s i x).tick = s.tick := (rfl)
@[simp] theorem setSlot_prog (s : State) (i : Nat) (x : Slot) : (setSlot s i x).prog = s.prog := (rfl)
@[simp] theorem setSlot_cores (s : State) (i : Nat) (x : Slot) : (setSlot s i x).cores = s.cores := (rfl)
@[simp] theorem setSlot_transit (s : State) (i : Nat) (x : Slot) : (setSlot s i x).transit = s.transit := (rfl)
@[simp] theorem setSlot_srv (s : State) (i : Nat) (x : Slot) : (setSlot s i x).srv = s.srv := (rfl)
@[simp] theorem setSlot_proofs (s : State) (i : Nat) (x : Slot) : (setSlot s i x).proofs = s.proofs := (rfl)
@[simp] theorem setSlot_links (s : State) (i : Nat) (x : Slot) : (setSlot s i x).links = s.links := (rfl)
@[simp] theorem setSlot_fab (s : State) (i : Nat) (x : Slot) : (setSlot s i x).fab = s.fab := (rfl)
@[simp] theorem setSlot_hif (s : State) (i : Nat) (x : Slot) : (setSlot s i x).hif = s.hif := (rfl)
@[simp] theorem setSlot_lcf (s : State) (i : Nat) (x : Slot) : (setSlot s i x).lcf = s.lcf := (rfl)
@[simp] theorem setSlot_stl (s : State) (i : Nat) (x : Slot) : (setSlot s i x).stl = s.stl := (rfl)
@[simp] theorem setSlot_guard (s : State) (i : Nat) (x : Slot) : (setSlot s i x).guard = s.guard := (rfl)
@[simp] theorem setSlot_pwr (s : State) (i : Nat) (x : Slot) : (setSlot s i x).pwr = s.pwr := (rfl)
@[simp] theorem setSlot_pins (s : State) (i : Nat) (x : Slot) : (setSlot s i x).pins = s.pins := (rfl)

/-! ### setAdapter -/

@[simp] theorem setAdapter_pending (s : State) (i : Nat) (x : Adapter) : (setAdapter s i x).pending = s.pending := (rfl)
@[simp] theorem setAdapter_free (s : State) (i : Nat) (x : Adapter) : (setAdapter s i x).free = s.free := (rfl)
@[simp] theorem setAdapter_readData (s : State) (i : Nat) (x : Adapter) : (setAdapter s i x).readData = s.readData := (rfl)
@[simp] theorem setAdapter_die (s : State) (i : Nat) (x : Adapter) : (setAdapter s i x).die = s.die := (rfl)
@[simp] theorem setAdapter_heaths (s : State) (i : Nat) (x : Adapter) : (setAdapter s i x).heaths = s.heaths := (rfl)
@[simp] theorem setAdapter_memory (s : State) (i : Nat) (x : Adapter) : (setAdapter s i x).memory = s.memory := (rfl)
@[simp] theorem setAdapter_host (s : State) (i : Nat) (x : Adapter) : (setAdapter s i x).host = s.host := (rfl)
@[simp] theorem setAdapter_tick (s : State) (i : Nat) (x : Adapter) : (setAdapter s i x).tick = s.tick := (rfl)
@[simp] theorem setAdapter_prog (s : State) (i : Nat) (x : Adapter) : (setAdapter s i x).prog = s.prog := (rfl)
@[simp] theorem setAdapter_cores (s : State) (i : Nat) (x : Adapter) : (setAdapter s i x).cores = s.cores := (rfl)
@[simp] theorem setAdapter_transit (s : State) (i : Nat) (x : Adapter) : (setAdapter s i x).transit = s.transit := (rfl)
@[simp] theorem setAdapter_srv (s : State) (i : Nat) (x : Adapter) : (setAdapter s i x).srv = s.srv := (rfl)
@[simp] theorem setAdapter_proofs (s : State) (i : Nat) (x : Adapter) : (setAdapter s i x).proofs = s.proofs := (rfl)
@[simp] theorem setAdapter_links (s : State) (i : Nat) (x : Adapter) : (setAdapter s i x).links = s.links := (rfl)
@[simp] theorem setAdapter_fab (s : State) (i : Nat) (x : Adapter) : (setAdapter s i x).fab = s.fab := (rfl)
@[simp] theorem setAdapter_hif (s : State) (i : Nat) (x : Adapter) : (setAdapter s i x).hif = s.hif := (rfl)
@[simp] theorem setAdapter_lcf (s : State) (i : Nat) (x : Adapter) : (setAdapter s i x).lcf = s.lcf := (rfl)
@[simp] theorem setAdapter_stl (s : State) (i : Nat) (x : Adapter) : (setAdapter s i x).stl = s.stl := (rfl)
@[simp] theorem setAdapter_guard (s : State) (i : Nat) (x : Adapter) : (setAdapter s i x).guard = s.guard := (rfl)
@[simp] theorem setAdapter_pwr (s : State) (i : Nat) (x : Adapter) : (setAdapter s i x).pwr = s.pwr := (rfl)
@[simp] theorem setAdapter_pins (s : State) (i : Nat) (x : Adapter) : (setAdapter s i x).pins = s.pins := (rfl)

/-! ### hostWrite -/

@[simp] theorem hostWrite_pending (s : State) (a : Nat) (bs : List Byte) : (hostWrite s a bs).pending = s.pending := (rfl)
@[simp] theorem hostWrite_free (s : State) (a : Nat) (bs : List Byte) : (hostWrite s a bs).free = s.free := (rfl)
@[simp] theorem hostWrite_readData (s : State) (a : Nat) (bs : List Byte) : (hostWrite s a bs).readData = s.readData := (rfl)
@[simp] theorem hostWrite_die (s : State) (a : Nat) (bs : List Byte) : (hostWrite s a bs).die = s.die := (rfl)
@[simp] theorem hostWrite_heaths (s : State) (a : Nat) (bs : List Byte) : (hostWrite s a bs).heaths = s.heaths := (rfl)
@[simp] theorem hostWrite_memory (s : State) (a : Nat) (bs : List Byte) : (hostWrite s a bs).memory = s.memory := (rfl)
@[simp] theorem hostWrite_tick (s : State) (a : Nat) (bs : List Byte) : (hostWrite s a bs).tick = s.tick := (rfl)
@[simp] theorem hostWrite_prog (s : State) (a : Nat) (bs : List Byte) : (hostWrite s a bs).prog = s.prog := (rfl)
@[simp] theorem hostWrite_cores (s : State) (a : Nat) (bs : List Byte) : (hostWrite s a bs).cores = s.cores := (rfl)
@[simp] theorem hostWrite_transit (s : State) (a : Nat) (bs : List Byte) : (hostWrite s a bs).transit = s.transit := (rfl)
@[simp] theorem hostWrite_srv (s : State) (a : Nat) (bs : List Byte) : (hostWrite s a bs).srv = s.srv := (rfl)
@[simp] theorem hostWrite_load (s : State) (a : Nat) (bs : List Byte) : (hostWrite s a bs).load = s.load := (rfl)
@[simp] theorem hostWrite_proofs (s : State) (a : Nat) (bs : List Byte) : (hostWrite s a bs).proofs = s.proofs := (rfl)
@[simp] theorem hostWrite_links (s : State) (a : Nat) (bs : List Byte) : (hostWrite s a bs).links = s.links := (rfl)
@[simp] theorem hostWrite_fab (s : State) (a : Nat) (bs : List Byte) : (hostWrite s a bs).fab = s.fab := (rfl)
@[simp] theorem hostWrite_hif (s : State) (a : Nat) (bs : List Byte) : (hostWrite s a bs).hif = s.hif := (rfl)
@[simp] theorem hostWrite_lcf (s : State) (a : Nat) (bs : List Byte) : (hostWrite s a bs).lcf = s.lcf := (rfl)
@[simp] theorem hostWrite_stl (s : State) (a : Nat) (bs : List Byte) : (hostWrite s a bs).stl = s.stl := (rfl)
@[simp] theorem hostWrite_guard (s : State) (a : Nat) (bs : List Byte) : (hostWrite s a bs).guard = s.guard := (rfl)
@[simp] theorem hostWrite_pwr (s : State) (a : Nat) (bs : List Byte) : (hostWrite s a bs).pwr = s.pwr := (rfl)
@[simp] theorem hostWrite_pins (s : State) (a : Nat) (bs : List Byte) : (hostWrite s a bs).pins = s.pins := (rfl)

/-! ### bumpMeas -/

@[simp] theorem bumpMeas_pending (s : State) : (bumpMeas s).pending = s.pending := (rfl)
@[simp] theorem bumpMeas_free (s : State) : (bumpMeas s).free = s.free := (rfl)
@[simp] theorem bumpMeas_readData (s : State) : (bumpMeas s).readData = s.readData := (rfl)
@[simp] theorem bumpMeas_die (s : State) : (bumpMeas s).die = s.die := (rfl)
@[simp] theorem bumpMeas_heaths (s : State) : (bumpMeas s).heaths = s.heaths := (rfl)
@[simp] theorem bumpMeas_memory (s : State) : (bumpMeas s).memory = s.memory := (rfl)
@[simp] theorem bumpMeas_host (s : State) : (bumpMeas s).host = s.host := (rfl)
@[simp] theorem bumpMeas_tick (s : State) : (bumpMeas s).tick = s.tick := (rfl)
@[simp] theorem bumpMeas_prog (s : State) : (bumpMeas s).prog = s.prog := (rfl)
@[simp] theorem bumpMeas_cores (s : State) : (bumpMeas s).cores = s.cores := (rfl)
@[simp] theorem bumpMeas_transit (s : State) : (bumpMeas s).transit = s.transit := (rfl)
@[simp] theorem bumpMeas_srv (s : State) : (bumpMeas s).srv = s.srv := (rfl)
@[simp] theorem bumpMeas_load (s : State) : (bumpMeas s).load = s.load := (rfl)
@[simp] theorem bumpMeas_proofs (s : State) : (bumpMeas s).proofs = s.proofs := (rfl)
@[simp] theorem bumpMeas_links (s : State) : (bumpMeas s).links = s.links := (rfl)
@[simp] theorem bumpMeas_fab (s : State) : (bumpMeas s).fab = s.fab := (rfl)
@[simp] theorem bumpMeas_hif (s : State) : (bumpMeas s).hif = s.hif := (rfl)
@[simp] theorem bumpMeas_lcf (s : State) : (bumpMeas s).lcf = s.lcf := (rfl)
@[simp] theorem bumpMeas_guard (s : State) : (bumpMeas s).guard = s.guard := (rfl)
@[simp] theorem bumpMeas_pwr (s : State) : (bumpMeas s).pwr = s.pwr := (rfl)
@[simp] theorem bumpMeas_pins (s : State) : (bumpMeas s).pins = s.pins := (rfl)

/-! ### A part read after a part is written -/

@[simp] theorem coreAt_setCore_self (s : State) (i : Nat) (x : Core) : coreAt (setCore s i x) i = x :=
  look_put_self _ _ _ _

theorem coreAt_setCore (s : State) (i j : Nat) (x : Core) :
    coreAt (setCore s i x) j = if j = i then x else coreAt s j := look_put _ _ _ _ _

theorem coreAt_setCore_ne (s : State) {i j : Nat} (x : Core) (h : j ≠ i) : coreAt (setCore s i x) j = coreAt s j :=
  look_put_ne _ _ _ h

@[simp] theorem heathAt_setHeath_self (s : State) (i : Nat) (x : Heath) : heathAt (setHeath s i x) i = x :=
  look_put_self _ _ _ _

theorem heathAt_setHeath (s : State) (i j : Nat) (x : Heath) :
    heathAt (setHeath s i x) j = if j = i then x else heathAt s j := look_put _ _ _ _ _

theorem heathAt_setHeath_ne (s : State) {i j : Nat} (x : Heath) (h : j ≠ i) : heathAt (setHeath s i x) j = heathAt s j :=
  look_put_ne _ _ _ h

@[simp] theorem linkAt_setLink_self (s : State) (i : Nat) (x : Link) : linkAt (setLink s i x) i = x :=
  look_put_self _ _ _ _

theorem linkAt_setLink (s : State) (i j : Nat) (x : Link) :
    linkAt (setLink s i x) j = if j = i then x else linkAt s j := look_put _ _ _ _ _

theorem linkAt_setLink_ne (s : State) {i j : Nat} (x : Link) (h : j ≠ i) : linkAt (setLink s i x) j = linkAt s j :=
  look_put_ne _ _ _ h

@[simp] theorem fnAt_setFn_self (s : State) (i : Nat) (x : Fn) : fnAt (setFn s i x) i = x :=
  look_put_self _ _ _ _

theorem fnAt_setFn (s : State) (i j : Nat) (x : Fn) :
    fnAt (setFn s i x) j = if j = i then x else fnAt s j := look_put _ _ _ _ _

theorem fnAt_setFn_ne (s : State) {i j : Nat} (x : Fn) (h : j ≠ i) : fnAt (setFn s i x) j = fnAt s j :=
  look_put_ne _ _ _ h

@[simp] theorem chanAt_setChan_self (s : State) (i : Nat) (x : Chan) : chanAt (setChan s i x) i = x :=
  look_put_self _ _ _ _

theorem chanAt_setChan (s : State) (i j : Nat) (x : Chan) :
    chanAt (setChan s i x) j = if j = i then x else chanAt s j := look_put _ _ _ _ _

theorem chanAt_setChan_ne (s : State) {i j : Nat} (x : Chan) (h : j ≠ i) : chanAt (setChan s i x) j = chanAt s j :=
  look_put_ne _ _ _ h

@[simp] theorem spareAt_setSpare_self (s : State) (i : Nat) (x : Spare) : spareAt (setSpare s i x) i = x :=
  look_put_self _ _ _ _

theorem spareAt_setSpare (s : State) (i j : Nat) (x : Spare) :
    spareAt (setSpare s i x) j = if j = i then x else spareAt s j := look_put _ _ _ _ _

theorem spareAt_setSpare_ne (s : State) {i j : Nat} (x : Spare) (h : j ≠ i) : spareAt (setSpare s i x) j = spareAt s j :=
  look_put_ne _ _ _ h

@[simp] theorem reqAt_setReq_self (s : State) (i : Nat) (x : Req) : reqAt (setReq s i x) i = x :=
  look_put_self _ _ _ _

theorem reqAt_setReq (s : State) (i j : Nat) (x : Req) :
    reqAt (setReq s i x) j = if j = i then x else reqAt s j := look_put _ _ _ _ _

theorem reqAt_setReq_ne (s : State) {i j : Nat} (x : Req) (h : j ≠ i) : reqAt (setReq s i x) j = reqAt s j :=
  look_put_ne _ _ _ h

@[simp] theorem tenantAt_setTenant_self (s : State) (i : Nat) (x : Tenant) : tenantAt (setTenant s i x) i = x :=
  look_put_self _ _ _ _

theorem tenantAt_setTenant (s : State) (i j : Nat) (x : Tenant) :
    tenantAt (setTenant s i x) j = if j = i then x else tenantAt s j := look_put _ _ _ _ _

theorem tenantAt_setTenant_ne (s : State) {i j : Nat} (x : Tenant) (h : j ≠ i) : tenantAt (setTenant s i x) j = tenantAt s j :=
  look_put_ne _ _ _ h

@[simp] theorem slotAt_setSlot_self (s : State) (i : Nat) (x : Slot) : slotAt (setSlot s i x) i = x :=
  look_put_self _ _ _ _

theorem slotAt_setSlot (s : State) (i j : Nat) (x : Slot) :
    slotAt (setSlot s i x) j = if j = i then x else slotAt s j := look_put _ _ _ _ _

theorem slotAt_setSlot_ne (s : State) {i j : Nat} (x : Slot) (h : j ≠ i) : slotAt (setSlot s i x) j = slotAt s j :=
  look_put_ne _ _ _ h

@[simp] theorem adapterAt_setAdapter_self (s : State) (i : Nat) (x : Adapter) : adapterAt (setAdapter s i x) i = x :=
  look_put_self _ _ _ _

theorem adapterAt_setAdapter (s : State) (i j : Nat) (x : Adapter) :
    adapterAt (setAdapter s i x) j = if j = i then x else adapterAt s j := look_put _ _ _ _ _

theorem adapterAt_setAdapter_ne (s : State) {i j : Nat} (x : Adapter) (h : j ≠ i) : adapterAt (setAdapter s i x) j = adapterAt s j :=
  look_put_ne _ _ _ h

@[simp] theorem coreAt_of_setHeath (s : State) (h : Nat) (x : Heath) (i_ : Nat) : coreAt (setHeath s h x) i_ = coreAt s i_ := (rfl)
@[simp] theorem coreAt_of_setLink (s : State) (n : Nat) (l : Link) (i_ : Nat) : coreAt (setLink s n l) i_ = coreAt s i_ := (rfl)
@[simp] theorem coreAt_of_setFn (s : State) (f : Nat) (x : Fn) (i_ : Nat) : coreAt (setFn s f x) i_ = coreAt s i_ := (rfl)
@[simp] theorem coreAt_of_setChan (s : State) (c : Nat) (x : Chan) (i_ : Nat) : coreAt (setChan s c x) i_ = coreAt s i_ := (rfl)
@[simp] theorem coreAt_of_setSpare (s : State) (d : Nat) (x : Spare) (i_ : Nat) : coreAt (setSpare s d x) i_ = coreAt s i_ := (rfl)
@[simp] theorem coreAt_of_setDdr (s : State) (m : Mem) (i_ : Nat) : coreAt (setDdr s m) i_ = coreAt s i_ := (rfl)
@[simp] theorem coreAt_of_setReq (s : State) (i : Nat) (r : Req) (i_ : Nat) : coreAt (setReq s i r) i_ = coreAt s i_ := (rfl)
@[simp] theorem coreAt_of_setTenant (s : State) (i : Nat) (t : Tenant) (i_ : Nat) : coreAt (setTenant s i t) i_ = coreAt s i_ := (rfl)
@[simp] theorem coreAt_of_setSlot (s : State) (i : Nat) (x : Slot) (i_ : Nat) : coreAt (setSlot s i x) i_ = coreAt s i_ := (rfl)
@[simp] theorem coreAt_of_setAdapter (s : State) (i : Nat) (x : Adapter) (i_ : Nat) : coreAt (setAdapter s i x) i_ = coreAt s i_ := (rfl)
@[simp] theorem coreAt_of_hostWrite (s : State) (a : Nat) (bs : List Byte) (i_ : Nat) : coreAt (hostWrite s a bs) i_ = coreAt s i_ := (rfl)
@[simp] theorem coreAt_of_bumpMeas (s : State) (i_ : Nat) : coreAt (bumpMeas s) i_ = coreAt s i_ := (rfl)
@[simp] theorem heathAt_of_setCore (s : State) (v : Nat) (c : Core) (i_ : Nat) : heathAt (setCore s v c) i_ = heathAt s i_ := (rfl)
@[simp] theorem heathAt_of_setLink (s : State) (n : Nat) (l : Link) (i_ : Nat) : heathAt (setLink s n l) i_ = heathAt s i_ := (rfl)
@[simp] theorem heathAt_of_setFn (s : State) (f : Nat) (x : Fn) (i_ : Nat) : heathAt (setFn s f x) i_ = heathAt s i_ := (rfl)
@[simp] theorem heathAt_of_setChan (s : State) (c : Nat) (x : Chan) (i_ : Nat) : heathAt (setChan s c x) i_ = heathAt s i_ := (rfl)
@[simp] theorem heathAt_of_setSpare (s : State) (d : Nat) (x : Spare) (i_ : Nat) : heathAt (setSpare s d x) i_ = heathAt s i_ := (rfl)
@[simp] theorem heathAt_of_setDdr (s : State) (m : Mem) (i_ : Nat) : heathAt (setDdr s m) i_ = heathAt s i_ := (rfl)
@[simp] theorem heathAt_of_setReq (s : State) (i : Nat) (r : Req) (i_ : Nat) : heathAt (setReq s i r) i_ = heathAt s i_ := (rfl)
@[simp] theorem heathAt_of_setTenant (s : State) (i : Nat) (t : Tenant) (i_ : Nat) : heathAt (setTenant s i t) i_ = heathAt s i_ := (rfl)
@[simp] theorem heathAt_of_setSlot (s : State) (i : Nat) (x : Slot) (i_ : Nat) : heathAt (setSlot s i x) i_ = heathAt s i_ := (rfl)
@[simp] theorem heathAt_of_setAdapter (s : State) (i : Nat) (x : Adapter) (i_ : Nat) : heathAt (setAdapter s i x) i_ = heathAt s i_ := (rfl)
@[simp] theorem heathAt_of_hostWrite (s : State) (a : Nat) (bs : List Byte) (i_ : Nat) : heathAt (hostWrite s a bs) i_ = heathAt s i_ := (rfl)
@[simp] theorem heathAt_of_bumpMeas (s : State) (i_ : Nat) : heathAt (bumpMeas s) i_ = heathAt s i_ := (rfl)
@[simp] theorem linkAt_of_setCore (s : State) (v : Nat) (c : Core) (i_ : Nat) : linkAt (setCore s v c) i_ = linkAt s i_ := (rfl)
@[simp] theorem linkAt_of_setHeath (s : State) (h : Nat) (x : Heath) (i_ : Nat) : linkAt (setHeath s h x) i_ = linkAt s i_ := (rfl)
@[simp] theorem linkAt_of_setFn (s : State) (f : Nat) (x : Fn) (i_ : Nat) : linkAt (setFn s f x) i_ = linkAt s i_ := (rfl)
@[simp] theorem linkAt_of_setChan (s : State) (c : Nat) (x : Chan) (i_ : Nat) : linkAt (setChan s c x) i_ = linkAt s i_ := (rfl)
@[simp] theorem linkAt_of_setSpare (s : State) (d : Nat) (x : Spare) (i_ : Nat) : linkAt (setSpare s d x) i_ = linkAt s i_ := (rfl)
@[simp] theorem linkAt_of_setDdr (s : State) (m : Mem) (i_ : Nat) : linkAt (setDdr s m) i_ = linkAt s i_ := (rfl)
@[simp] theorem linkAt_of_setReq (s : State) (i : Nat) (r : Req) (i_ : Nat) : linkAt (setReq s i r) i_ = linkAt s i_ := (rfl)
@[simp] theorem linkAt_of_setTenant (s : State) (i : Nat) (t : Tenant) (i_ : Nat) : linkAt (setTenant s i t) i_ = linkAt s i_ := (rfl)
@[simp] theorem linkAt_of_setSlot (s : State) (i : Nat) (x : Slot) (i_ : Nat) : linkAt (setSlot s i x) i_ = linkAt s i_ := (rfl)
@[simp] theorem linkAt_of_setAdapter (s : State) (i : Nat) (x : Adapter) (i_ : Nat) : linkAt (setAdapter s i x) i_ = linkAt s i_ := (rfl)
@[simp] theorem linkAt_of_hostWrite (s : State) (a : Nat) (bs : List Byte) (i_ : Nat) : linkAt (hostWrite s a bs) i_ = linkAt s i_ := (rfl)
@[simp] theorem linkAt_of_bumpMeas (s : State) (i_ : Nat) : linkAt (bumpMeas s) i_ = linkAt s i_ := (rfl)
@[simp] theorem fnAt_of_setCore (s : State) (v : Nat) (c : Core) (i_ : Nat) : fnAt (setCore s v c) i_ = fnAt s i_ := (rfl)
@[simp] theorem fnAt_of_setHeath (s : State) (h : Nat) (x : Heath) (i_ : Nat) : fnAt (setHeath s h x) i_ = fnAt s i_ := (rfl)
@[simp] theorem fnAt_of_setLink (s : State) (n : Nat) (l : Link) (i_ : Nat) : fnAt (setLink s n l) i_ = fnAt s i_ := (rfl)
@[simp] theorem fnAt_of_setChan (s : State) (c : Nat) (x : Chan) (i_ : Nat) : fnAt (setChan s c x) i_ = fnAt s i_ := (rfl)
@[simp] theorem fnAt_of_setSpare (s : State) (d : Nat) (x : Spare) (i_ : Nat) : fnAt (setSpare s d x) i_ = fnAt s i_ := (rfl)
@[simp] theorem fnAt_of_setDdr (s : State) (m : Mem) (i_ : Nat) : fnAt (setDdr s m) i_ = fnAt s i_ := (rfl)
@[simp] theorem fnAt_of_setReq (s : State) (i : Nat) (r : Req) (i_ : Nat) : fnAt (setReq s i r) i_ = fnAt s i_ := (rfl)
@[simp] theorem fnAt_of_setTenant (s : State) (i : Nat) (t : Tenant) (i_ : Nat) : fnAt (setTenant s i t) i_ = fnAt s i_ := (rfl)
@[simp] theorem fnAt_of_setSlot (s : State) (i : Nat) (x : Slot) (i_ : Nat) : fnAt (setSlot s i x) i_ = fnAt s i_ := (rfl)
@[simp] theorem fnAt_of_setAdapter (s : State) (i : Nat) (x : Adapter) (i_ : Nat) : fnAt (setAdapter s i x) i_ = fnAt s i_ := (rfl)
@[simp] theorem fnAt_of_hostWrite (s : State) (a : Nat) (bs : List Byte) (i_ : Nat) : fnAt (hostWrite s a bs) i_ = fnAt s i_ := (rfl)
@[simp] theorem fnAt_of_bumpMeas (s : State) (i_ : Nat) : fnAt (bumpMeas s) i_ = fnAt s i_ := (rfl)
@[simp] theorem chanAt_of_setCore (s : State) (v : Nat) (c : Core) (i_ : Nat) : chanAt (setCore s v c) i_ = chanAt s i_ := (rfl)
@[simp] theorem chanAt_of_setHeath (s : State) (h : Nat) (x : Heath) (i_ : Nat) : chanAt (setHeath s h x) i_ = chanAt s i_ := (rfl)
@[simp] theorem chanAt_of_setLink (s : State) (n : Nat) (l : Link) (i_ : Nat) : chanAt (setLink s n l) i_ = chanAt s i_ := (rfl)
@[simp] theorem chanAt_of_setFn (s : State) (f : Nat) (x : Fn) (i_ : Nat) : chanAt (setFn s f x) i_ = chanAt s i_ := (rfl)
@[simp] theorem chanAt_of_setSpare (s : State) (d : Nat) (x : Spare) (i_ : Nat) : chanAt (setSpare s d x) i_ = chanAt s i_ := (rfl)
@[simp] theorem chanAt_of_setDdr (s : State) (m : Mem) (i_ : Nat) : chanAt (setDdr s m) i_ = chanAt s i_ := (rfl)
@[simp] theorem chanAt_of_setReq (s : State) (i : Nat) (r : Req) (i_ : Nat) : chanAt (setReq s i r) i_ = chanAt s i_ := (rfl)
@[simp] theorem chanAt_of_setTenant (s : State) (i : Nat) (t : Tenant) (i_ : Nat) : chanAt (setTenant s i t) i_ = chanAt s i_ := (rfl)
@[simp] theorem chanAt_of_setSlot (s : State) (i : Nat) (x : Slot) (i_ : Nat) : chanAt (setSlot s i x) i_ = chanAt s i_ := (rfl)
@[simp] theorem chanAt_of_setAdapter (s : State) (i : Nat) (x : Adapter) (i_ : Nat) : chanAt (setAdapter s i x) i_ = chanAt s i_ := (rfl)
@[simp] theorem chanAt_of_hostWrite (s : State) (a : Nat) (bs : List Byte) (i_ : Nat) : chanAt (hostWrite s a bs) i_ = chanAt s i_ := (rfl)
@[simp] theorem chanAt_of_bumpMeas (s : State) (i_ : Nat) : chanAt (bumpMeas s) i_ = chanAt s i_ := (rfl)
@[simp] theorem spareAt_of_setCore (s : State) (v : Nat) (c : Core) (i_ : Nat) : spareAt (setCore s v c) i_ = spareAt s i_ := (rfl)
@[simp] theorem spareAt_of_setHeath (s : State) (h : Nat) (x : Heath) (i_ : Nat) : spareAt (setHeath s h x) i_ = spareAt s i_ := (rfl)
@[simp] theorem spareAt_of_setLink (s : State) (n : Nat) (l : Link) (i_ : Nat) : spareAt (setLink s n l) i_ = spareAt s i_ := (rfl)
@[simp] theorem spareAt_of_setFn (s : State) (f : Nat) (x : Fn) (i_ : Nat) : spareAt (setFn s f x) i_ = spareAt s i_ := (rfl)
@[simp] theorem spareAt_of_setChan (s : State) (c : Nat) (x : Chan) (i_ : Nat) : spareAt (setChan s c x) i_ = spareAt s i_ := (rfl)
@[simp] theorem spareAt_of_setDdr (s : State) (m : Mem) (i_ : Nat) : spareAt (setDdr s m) i_ = spareAt s i_ := (rfl)
@[simp] theorem spareAt_of_setReq (s : State) (i : Nat) (r : Req) (i_ : Nat) : spareAt (setReq s i r) i_ = spareAt s i_ := (rfl)
@[simp] theorem spareAt_of_setTenant (s : State) (i : Nat) (t : Tenant) (i_ : Nat) : spareAt (setTenant s i t) i_ = spareAt s i_ := (rfl)
@[simp] theorem spareAt_of_setSlot (s : State) (i : Nat) (x : Slot) (i_ : Nat) : spareAt (setSlot s i x) i_ = spareAt s i_ := (rfl)
@[simp] theorem spareAt_of_setAdapter (s : State) (i : Nat) (x : Adapter) (i_ : Nat) : spareAt (setAdapter s i x) i_ = spareAt s i_ := (rfl)
@[simp] theorem spareAt_of_hostWrite (s : State) (a : Nat) (bs : List Byte) (i_ : Nat) : spareAt (hostWrite s a bs) i_ = spareAt s i_ := (rfl)
@[simp] theorem spareAt_of_bumpMeas (s : State) (i_ : Nat) : spareAt (bumpMeas s) i_ = spareAt s i_ := (rfl)
@[simp] theorem reqAt_of_setCore (s : State) (v : Nat) (c : Core) (i_ : Nat) : reqAt (setCore s v c) i_ = reqAt s i_ := (rfl)
@[simp] theorem reqAt_of_setHeath (s : State) (h : Nat) (x : Heath) (i_ : Nat) : reqAt (setHeath s h x) i_ = reqAt s i_ := (rfl)
@[simp] theorem reqAt_of_setLink (s : State) (n : Nat) (l : Link) (i_ : Nat) : reqAt (setLink s n l) i_ = reqAt s i_ := (rfl)
@[simp] theorem reqAt_of_setFn (s : State) (f : Nat) (x : Fn) (i_ : Nat) : reqAt (setFn s f x) i_ = reqAt s i_ := (rfl)
@[simp] theorem reqAt_of_setChan (s : State) (c : Nat) (x : Chan) (i_ : Nat) : reqAt (setChan s c x) i_ = reqAt s i_ := (rfl)
@[simp] theorem reqAt_of_setSpare (s : State) (d : Nat) (x : Spare) (i_ : Nat) : reqAt (setSpare s d x) i_ = reqAt s i_ := (rfl)
@[simp] theorem reqAt_of_setDdr (s : State) (m : Mem) (i_ : Nat) : reqAt (setDdr s m) i_ = reqAt s i_ := (rfl)
@[simp] theorem reqAt_of_setTenant (s : State) (i : Nat) (t : Tenant) (i_ : Nat) : reqAt (setTenant s i t) i_ = reqAt s i_ := (rfl)
@[simp] theorem reqAt_of_setSlot (s : State) (i : Nat) (x : Slot) (i_ : Nat) : reqAt (setSlot s i x) i_ = reqAt s i_ := (rfl)
@[simp] theorem reqAt_of_setAdapter (s : State) (i : Nat) (x : Adapter) (i_ : Nat) : reqAt (setAdapter s i x) i_ = reqAt s i_ := (rfl)
@[simp] theorem reqAt_of_hostWrite (s : State) (a : Nat) (bs : List Byte) (i_ : Nat) : reqAt (hostWrite s a bs) i_ = reqAt s i_ := (rfl)
@[simp] theorem reqAt_of_bumpMeas (s : State) (i_ : Nat) : reqAt (bumpMeas s) i_ = reqAt s i_ := (rfl)
@[simp] theorem tenantAt_of_setCore (s : State) (v : Nat) (c : Core) (i_ : Nat) : tenantAt (setCore s v c) i_ = tenantAt s i_ := (rfl)
@[simp] theorem tenantAt_of_setHeath (s : State) (h : Nat) (x : Heath) (i_ : Nat) : tenantAt (setHeath s h x) i_ = tenantAt s i_ := (rfl)
@[simp] theorem tenantAt_of_setLink (s : State) (n : Nat) (l : Link) (i_ : Nat) : tenantAt (setLink s n l) i_ = tenantAt s i_ := (rfl)
@[simp] theorem tenantAt_of_setFn (s : State) (f : Nat) (x : Fn) (i_ : Nat) : tenantAt (setFn s f x) i_ = tenantAt s i_ := (rfl)
@[simp] theorem tenantAt_of_setChan (s : State) (c : Nat) (x : Chan) (i_ : Nat) : tenantAt (setChan s c x) i_ = tenantAt s i_ := (rfl)
@[simp] theorem tenantAt_of_setSpare (s : State) (d : Nat) (x : Spare) (i_ : Nat) : tenantAt (setSpare s d x) i_ = tenantAt s i_ := (rfl)
@[simp] theorem tenantAt_of_setDdr (s : State) (m : Mem) (i_ : Nat) : tenantAt (setDdr s m) i_ = tenantAt s i_ := (rfl)
@[simp] theorem tenantAt_of_setReq (s : State) (i : Nat) (r : Req) (i_ : Nat) : tenantAt (setReq s i r) i_ = tenantAt s i_ := (rfl)
@[simp] theorem tenantAt_of_setSlot (s : State) (i : Nat) (x : Slot) (i_ : Nat) : tenantAt (setSlot s i x) i_ = tenantAt s i_ := (rfl)
@[simp] theorem tenantAt_of_setAdapter (s : State) (i : Nat) (x : Adapter) (i_ : Nat) : tenantAt (setAdapter s i x) i_ = tenantAt s i_ := (rfl)
@[simp] theorem tenantAt_of_hostWrite (s : State) (a : Nat) (bs : List Byte) (i_ : Nat) : tenantAt (hostWrite s a bs) i_ = tenantAt s i_ := (rfl)
@[simp] theorem tenantAt_of_bumpMeas (s : State) (i_ : Nat) : tenantAt (bumpMeas s) i_ = tenantAt s i_ := (rfl)
@[simp] theorem slotAt_of_setCore (s : State) (v : Nat) (c : Core) (i_ : Nat) : slotAt (setCore s v c) i_ = slotAt s i_ := (rfl)
@[simp] theorem slotAt_of_setHeath (s : State) (h : Nat) (x : Heath) (i_ : Nat) : slotAt (setHeath s h x) i_ = slotAt s i_ := (rfl)
@[simp] theorem slotAt_of_setLink (s : State) (n : Nat) (l : Link) (i_ : Nat) : slotAt (setLink s n l) i_ = slotAt s i_ := (rfl)
@[simp] theorem slotAt_of_setFn (s : State) (f : Nat) (x : Fn) (i_ : Nat) : slotAt (setFn s f x) i_ = slotAt s i_ := (rfl)
@[simp] theorem slotAt_of_setChan (s : State) (c : Nat) (x : Chan) (i_ : Nat) : slotAt (setChan s c x) i_ = slotAt s i_ := (rfl)
@[simp] theorem slotAt_of_setSpare (s : State) (d : Nat) (x : Spare) (i_ : Nat) : slotAt (setSpare s d x) i_ = slotAt s i_ := (rfl)
@[simp] theorem slotAt_of_setDdr (s : State) (m : Mem) (i_ : Nat) : slotAt (setDdr s m) i_ = slotAt s i_ := (rfl)
@[simp] theorem slotAt_of_setReq (s : State) (i : Nat) (r : Req) (i_ : Nat) : slotAt (setReq s i r) i_ = slotAt s i_ := (rfl)
@[simp] theorem slotAt_of_setTenant (s : State) (i : Nat) (t : Tenant) (i_ : Nat) : slotAt (setTenant s i t) i_ = slotAt s i_ := (rfl)
@[simp] theorem slotAt_of_setAdapter (s : State) (i : Nat) (x : Adapter) (i_ : Nat) : slotAt (setAdapter s i x) i_ = slotAt s i_ := (rfl)
@[simp] theorem slotAt_of_hostWrite (s : State) (a : Nat) (bs : List Byte) (i_ : Nat) : slotAt (hostWrite s a bs) i_ = slotAt s i_ := (rfl)
@[simp] theorem slotAt_of_bumpMeas (s : State) (i_ : Nat) : slotAt (bumpMeas s) i_ = slotAt s i_ := (rfl)
@[simp] theorem adapterAt_of_setCore (s : State) (v : Nat) (c : Core) (i_ : Nat) : adapterAt (setCore s v c) i_ = adapterAt s i_ := (rfl)
@[simp] theorem adapterAt_of_setHeath (s : State) (h : Nat) (x : Heath) (i_ : Nat) : adapterAt (setHeath s h x) i_ = adapterAt s i_ := (rfl)
@[simp] theorem adapterAt_of_setLink (s : State) (n : Nat) (l : Link) (i_ : Nat) : adapterAt (setLink s n l) i_ = adapterAt s i_ := (rfl)
@[simp] theorem adapterAt_of_setFn (s : State) (f : Nat) (x : Fn) (i_ : Nat) : adapterAt (setFn s f x) i_ = adapterAt s i_ := (rfl)
@[simp] theorem adapterAt_of_setChan (s : State) (c : Nat) (x : Chan) (i_ : Nat) : adapterAt (setChan s c x) i_ = adapterAt s i_ := (rfl)
@[simp] theorem adapterAt_of_setSpare (s : State) (d : Nat) (x : Spare) (i_ : Nat) : adapterAt (setSpare s d x) i_ = adapterAt s i_ := (rfl)
@[simp] theorem adapterAt_of_setDdr (s : State) (m : Mem) (i_ : Nat) : adapterAt (setDdr s m) i_ = adapterAt s i_ := (rfl)
@[simp] theorem adapterAt_of_setReq (s : State) (i : Nat) (r : Req) (i_ : Nat) : adapterAt (setReq s i r) i_ = adapterAt s i_ := (rfl)
@[simp] theorem adapterAt_of_setTenant (s : State) (i : Nat) (t : Tenant) (i_ : Nat) : adapterAt (setTenant s i t) i_ = adapterAt s i_ := (rfl)
@[simp] theorem adapterAt_of_setSlot (s : State) (i : Nat) (x : Slot) (i_ : Nat) : adapterAt (setSlot s i x) i_ = adapterAt s i_ := (rfl)
@[simp] theorem adapterAt_of_hostWrite (s : State) (a : Nat) (bs : List Byte) (i_ : Nat) : adapterAt (hostWrite s a bs) i_ = adapterAt s i_ := (rfl)
@[simp] theorem adapterAt_of_bumpMeas (s : State) (i_ : Nat) : adapterAt (bumpMeas s) i_ = adapterAt s i_ := (rfl)

/-! ### A write of one part changes nothing else -/

theorem setCore_only (s : State) (v : Nat) (c : Core) :
    setCore s v c = { s with cores := (setCore s v c).cores } := (rfl)

theorem setHeath_only (s : State) (h : Nat) (x : Heath) :
    setHeath s h x = { s with heaths := (setHeath s h x).heaths } := (rfl)

theorem setLink_only (s : State) (n : Nat) (l : Link) :
    setLink s n l = { s with links := (setLink s n l).links } := (rfl)

theorem setFn_only (s : State) (f : Nat) (x : Fn) :
    setFn s f x = { s with hif := { s.hif with fns := (setFn s f x).hif.fns } } := (rfl)

end Sys2Proof.Machine
end

