-- ==== Sys2Proof/WellFormed.lean ====
section
/-! DEFINITION. Well-formed commands: every operand within the range that its field or its unit has in the manual. -/

namespace Sys2Proof

/-- The parts that operands number: 1,200 cores on the larger grid (R22), 36 links (R339), 48 heaths (R11),
64 functions (R412). -/
def coreOk (v : Nat) : Bool := decide (v < 1200)
def linkOk (n : Nat) : Bool := decide (n < 36)
def heathOk (h : Nat) : Bool := decide (h < 48)
def fnOk (f : Nat) : Bool := decide (f < 64)

/-- A slot of a core's mesh port: 12 bits (R111). -/
def meshSlotOk (n : Nat) : Bool := decide (n < 4096)

/-- A source of a delivery (R213). -/
def Source.wf : Source → Bool
  | .core v => coreOk v
  | .group g => decide (g < 4096)
  | .device d => decide (d < 2 ^ 24)
  | .engine e => decide (e < 64)

/-- A priority flit's fields within their widths (table of R362). -/
def Prio.wf (p : Prio) : Bool :=
  decide (p.pkey < 2 ^ 16) && decide (p.epoch < 2 ^ 16) && decide (p.origin < 2 ^ 24) &&
  decide (p.stroke < 2 ^ 32) && decide (p.round < 2 ^ 8) && decide (p.code < 2 ^ 8) &&
  decide (p.cause < 2 ^ 4) && decide (p.gtc < 2 ^ 64) && decide (p.frac < 2 ^ 4)

/-- A packet's fields within their widths (table before R383). -/
def Packet.wf (p : Packet) : Bool :=
  decide (p.vc < 8) && decide (p.pkey < 2 ^ 16) && decide (p.dst < 2 ^ 24) && decide (p.src < 2 ^ 24) &&
  decide (p.slot < 4096) && decide (p.tag < 4096) && decide (p.epoch < 2 ^ 8) && decide (p.addr < 2 ^ 48)

/-- A flit's payload is 224 bytes (R357). -/
def Flit.wf (f : Flit) : Bool := f.payload.length == 224

/-- A device identifier is 24 bits (R380), a session 32, and a header version and a type 8 (R394). -/
def Auth.wf (a : Auth) : Bool :=
  decide (a.sender < 2 ^ 24) && decide (a.session < 2 ^ 32) && decide (a.mver < 2 ^ 8) && decide (a.mtype < 2 ^ 8)

/-- A descriptor ring of a function (R416). -/
def ringOk (f r : Nat) : Bool := fnOk f && decide (r < 64)

/-- An offset of BAR0 (R488). -/
def barOk (off : Nat) : Bool := decide (off < 2 ^ 26)

/-- A CONFIRM field is 11 bits (R468). -/
def confirmOk (c : Nat) : Bool := decide (c < 2 ^ 11)

/-- Every operand of the command is in range. -/
def Instr.wf : Instr → Bool
  | .loadTile v => coreOk v
  | .stream v => coreOk v
  | .drain v => coreOk v
  | .accClear v => coreOk v
  | .vmpLoad v => coreOk v
  | .vmpStream v => coreOk v
  | .vmpDrain v => coreOk v
  | .vmpClear v => coreOk v
  | .vld v => coreOk v
  | .vst v => coreOk v
  | .valu v => coreOk v
  | .vfn v => coreOk v
  | .vred v => coreOk v
  | .vmask v => coreOk v
  | .vlane v => coreOk v
  | .mld v => coreOk v
  | .mst v => coreOk v
  | .nld v => coreOk v
  | .recst v => coreOk v
  | .dmaRow v => coreOk v
  | .dmaCol v => coreOk v
  | .dmaPressImage v => coreOk v
  | .dmaMxPack v => coreOk v
  | .dmaGather v => coreOk v
  | .send v => coreOk v
  | .recv v => coreOk v
  | .mcast v => coreOk v
  | .strokeEnd v => coreOk v
  | .wait v => coreOk v
  | .own v => coreOk v
  | .nop v => coreOk v
  | .loop v => coreOk v
  | .setb v => coreOk v
  | .addb v => coreOk v
  | .mop v => coreOk v
  | .halt v => coreOk v
  | .meshDelivery v slot src => coreOk v && meshSlotOk slot && src.wf
  | .recvComplete v slot => coreOk v && meshSlotOk slot
  | .dmaDescriptorComplete v eng => coreOk v && decide (eng < 2)
  | .coreStrokeEndReached v => coreOk v
  | .strokeLaunch => true
  | .holdPoint => true
  | .decisionTick => true
  | .strokeCommit => true
  | .hold n p => linkOk n && p.wf
  | .stop n p => linkOk n && p.wf
  | .launchCancel n p => linkOk n && p.wf
  | .beacon n p => linkOk n && p.wf
  | .beaconSend => true
  | .beaconMissed => true
  | .coordinatorLaunchStart => true
  | .launchAckDeadline => true
  | .launchWaitTimeout => true
  | .crossingLateArrival => true
  | .droopDetected h => heathOk h
  | .patrolScrub addr _ => match addr with
    | .mapped a => decide (a < 0x048000000000)
    | .spare d o => decide (d < 8) && decide (o < 2 ^ 36)
  | .channelScoreHalving => true
  | .copyOutRemap d => decide (d < 8)
  | .granuleRepairComplete addr bytes => decide (addr < 0x048000000000) && bytes.length == 2048
  | .registerWrite off _ _ => fnOk off.fn && barOk off.off
  | .gtcLoRead _ => true
  | .poisonLogRead off _ => barOk off
  | .regionEntryWrite n w _ => decide (n < 64) && decide (w < 4)
  | .srvEnable => true
  | .srvDisable => true
  | .srvConfigChange pageTokens mode => decide (pageTokens < 8) && decide (mode < 4)
  | .adapterRegionEnable units count => decide (units < 2 ^ 16) && decide (count < 2 ^ 11)
  | .hostRingHeadWrite _ _ => true
  | .proofRingCopy => true
  | .functionEnable f _ _ => fnOk f
  | .functionDisable f _ => fnOk f
  | .flrComplete f => fnOk f
  | .pf0Flr => true
  | .lifecycleAdvance target confirm => decide (target < 4) && confirmOk confirm
  | .downbin confirm => confirmOk confirm
  | .spareCommit confirm => confirmOk confirm
  | .revokeKey key confirm => decide (key < 16) && confirmOk confirm
  | .rollbackAdvance count confirm => decide (count < 2 ^ 11) && confirmOk confirm
  | .tickEligToggle confirm => confirmOk confirm
  | .debugLock confirm => confirmOk confirm
  | .debugRelock => true
  | .fuseCommandComplete => true
  | .freeze _ => true
  | .fenceAll _ => true
  | .hostFlush _ => true
  | .dump _ => true
  | .heathReset _ => true
  | .zeroizeKeys _ => true
  | .zeroizePlates _ => true
  | .zeroizeDdr _ => true
  | .powerOff _ => true
  | .guardOpComplete => true
  | .heathControllerTimeout h _ => heathOk h
  | .linkEnable n => linkOk n
  | .linkDisable n => linkOk n
  | .linkFence n _ => linkOk n
  | .linkUnfence n => linkOk n
  | .linkRediscover n => linkOk n
  | .trainingComplete n _ delay => linkOk n && decide (delay < 2 ^ 16)
  | .trainingTimeout n => linkOk n
  | .record n _ => linkOk n
  | .linkVerdict n vd reason => linkOk n && decide (vd < 3) && decide (reason < 16)
  | .rediscover n => linkOk n
  | .discoveryRepeat n => linkOk n
  | .discoveryTimeout n => linkOk n
  | .flitSlotTransmit n => linkOk n
  | .flitReceive n slot f => linkOk n && decide (slot < 125) && f.flit.wf
  | .replayTimerExpiry n => linkOk n
  | .laneLockLoss n lane => linkOk n && decide (lane < 9)
  | .retrainComplete n _ => linkOk n
  | .portEngineFault e => decide (e < 6)
  | .packetForward n vc => linkOk n && decide (vc < 8)
  | .data p => p.wf
  | .readReq p => p.wf
  | .writeReq p => p.wf
  | .readResp p => p.wf
  | .writeAck p => p.wf
  | .window p => p.wf
  | .coll id _ _ => decide (id < 2 ^ 12)
  | .requestTimeout tag => decide (tag < 4096)
  | .congestionMapLatch => true
  | .congMap a _ => a.wf
  | .planWrite a _ => a.wf
  | .planCommit a _ _ => a.wf
  | .teardown a => a.wf
  | .teardownComplete => true
  | .fencePorts a _ _ => a.wf
  | .fenceDevice a => a.wf
  | .unfence a => a.wf
  | .regRead a off _ => a.wf && barOk off
  | .regWrite a off _ _ => a.wf && barOk off
  | .response a _ => a.wf
  | .launch a _ => a.wf
  | .launchAnswer a _ => a.wf
  | .abort a => a.wf
  | .stopPoint => true
  | .ready a m => a.wf && decide (m.member < 64) && decide (m.base < 2 ^ 48)
  | .readyTimeout => true
  | .loadLeafReceived _ _ _ => true
  | .verdict a member _ => a.wf && decide (member < 64)
  | .drained a member _ => a.wf && decide (member < 64)
  | .leafHashes a member _ _ => a.wf && decide (member < 8)
  | .manifest a _ => a.wf
  | .pair a _ => a.wf
  | .pairHeadTimeout => true
  | .pairBindingTimeout => true
  | .doorbellSnoop f r _ _ => fnOk f && decide (r ≤ 64)
  | .doorbellPoll f r tail head => f.all fnOk && r.all (fun r => decide (r ≤ 64)) &&
      r.length == f.length && tail.length == f.length && head.length == f.length
  | .submitRequest f r _ _ _ _ => ringOk f r
  | .cancel f r _ => ringOk f r
  | .loadModel f r _ _ => ringOk f r
  | .swapModel f r _ _ => ringOk f r
  | .loadAdapter f r _ _ => ringOk f r
  | .retireAdapter f r _ => ringOk f r
  | .setBudget f r _ => ringOk f r
  | .launchProgram f r _ _ _ => ringOk f r
  | .abortProgram f r _ => ringOk f r
  | .query f r _ => ringOk f r
  | .imageLoad => true
  | .loadPathNext => true
  | .adapterWaitTimeout => true
  | .slotZeroingComplete n => decide (n < 8)
  | .adapterZeroingComplete n => decide (n < 1024)
  | .pageZeroingComplete _ => true
  | .intakeComplete req => decide (req < 65536)
  | .boundaryStart => true
  | .journalWriteComplete => true
  | .completionRingRoom f r _ => ringOk f r
  | .eventLost f _ => fnOk f
  | .interruptCoalesceTimeout f r => fnOk f && decide (r ≤ 128)
  | .msixUnmask f vec => fnOk f && decide (vec < 2048)
  | .headSign => true
  | .hostSharedAccess _ dpa _ => decide (dpa < 2 ^ 36)
  | .spdmRequest version m => decide (version < 256) && decide (m.session < 2 ^ 32)
  | .keyExchange session _ _ => decide (session < 2 ^ 32)
  | .getMeasurements index => decide (index.index < 256)
  | .debugTokenSubmit _ => true
  | .debugUnlockExpiry => true
  | .stileWatchdogExpiry upsets => upsets.all fun p => decide (p.1 < 2 ^ 19)
  | .fwLoad _ => true
  | .coldReset _ _ => true
  | .bootRomStart _ _ => true
  | .bringUpStart => true
  | .heathSwitchOn h => heathOk h
  | .powerGoodTimeout h => heathOk h
  | .heathSelfTestDone h _ => heathOk h
  | .channelTrainingDone c _ => decide (c < 80)
  | .ddrInitZeroDone => true
  | .warmReset => true
  | .powerGoodLoss _ => true
  | .refclkLoss _ => true
  | .heathLoss h cause => heathOk h && decide (1 ≤ cause ∧ cause ≤ 6)
  | .rimDieLoss d => decide (d < 12)
  | .thermalLevelRise h temp => heathOk h && decide (temp < 1024)
  | .thermalLevelFall h temp => heathOk h && decide (temp < 1024)
  | .thermalTrip sensor temp => decide (sensor < 60) && decide (temp < 1024)
  | .powerCapInterval m => decide (m.watts < 2 ^ 14) && m.amps.all fun a => decide (a < 2 ^ 12)
  | .pcapAssert => true
  | .avsVidRaise h => heathOk h
  | .avsVidLower h => heathOk h
  | .avsFault h => heathOk h
  | .mctpPowerCap m => decide (m.addr < 2 ^ 7)
  | .pcapDeassert => true
  | .hostPortLinkTrained l => decide (l.rate < 8) && decide (l.width < 32)
  | .hdmDecoderCommit => true

end Sys2Proof
end

