-- ==== Sys2Proof/Tests/Slice0.lean ====
section
/-! SUPPORT. Small states; for every obligation with hypotheses a witness that meets them, clause by clause;
ill-formed commands that the checks refuse; and the manual's worked examples. -/

namespace Sys2Proof.Tests

open Sys2Proof Sys2Proof.Machine

set_option Elab.async false

/-! ## Small states -/

/-! ### Core 0 at an instruction -/

/-- An instruction word: opcode and the fields below it. -/
def iw (op rest : Nat) : DWord := dw (op * 2 ^ 56 + rest)

/-- A running program with core 0 at an instruction. -/
def at0 (w : DWord) (c : Core := {}) : State :=
  { State.reset with
    die := { d48 := true }, tick := { running := true, gtc := 1000, launched := true, stroke := 3 }
    heaths := [(0, { on := true, state := .up })]
    prog := { phase := .running, grid := 1, cores := 4, profiles := [List.replicate 600 0xFF] }
    cores := [(0, { c with phase := .run, inSetup := false, codeEnd := 16, store := [(c.pc, w)] })] }

def sNop := at0 (iw 0x30 0)
def sSetb := at0 (iw 0x32 (15 * 2 ^ 49 + 0xFFFFFFFF * 2 ^ 16))
def sSetbHi := at0 (iw 0x32 (3 * 2 ^ 49 + 2 ^ 48 + 0xABCD * 2 ^ 16)) { base := [(3, 5)] }
def sAddb := at0 (iw 0x33 (3 * 2 ^ 49 + 2 * 2 ^ 45 + (2 ^ 32 - 5) * 2 ^ 13)) { base := [(2, 100)] }
def sMop (op imm : Nat) := at0 (iw 0x34 (2 ^ 50 + 2 * 2 ^ 47 + 3 * 2 ^ 44 + op * 2 ^ 41 + imm * 2 ^ 9))
  { mask := [(1, 100), (2, 0xF0F0), (3, 0xFF00)] }
def sOwn := at0 (iw 0x2B (5 * 2 ^ 42 + 2 * 2 ^ 31 + 3 * 2 ^ 28)) { staged := [(6, 2)] }
def sLoop := at0 (iw 0x31 (2 ^ 51 + 3 * 2 ^ 35 + 4 * 2 ^ 19))
def sLoopIn :=
  at0 (iw 0x31 (2 ^ 51 + 3 * 2 ^ 35 + 4 * 2 ^ 19)) { loops := [{ lc := 0, first := 0, last := 5, left := 1 }] }
def sLoopBad :=
  at0 (iw 0x31 (2 ^ 51 + 3 * 2 ^ 35 + 4 * 2 ^ 19)) { loops := [{ lc := 1, first := 0, last := 9, left := 1 }] }
def loopCores : List Core := [{}, { pc := 4, loops := [{ lc := 0, first := 2, last := 5, left := 1 }] },
  { pc := 5, loops := [{ lc := 0, first := 2, last := 5, left := 1 }] },
  { pc := 5, loops := [{ lc := 0, first := 2, last := 5 }, { lc := 1, first := 1, last := 5, left := 2 }] }]
def sWaitSet := at0 (iw 0x29 (9 * 2 ^ 47)) { flagSet := 0x300 }
def sWaitPend := at0 (iw 0x29 (9 * 2 ^ 47)) { flagPend := 0x200 }
def sWaitBad := at0 (iw 0x29 (9 * 2 ^ 47))
def sEnd := at0 (iw 0x28 0)
def sHalt := at0 (iw 0x37 0)
def setup0 (w : DWord) (step : Bool) : State :=
  { at0 w with tick := { running := true }, cores := [(0, { codeEnd := 16, store := [(0, w)] })]
               prog := { phase := .loaded, grid := 1, cores := 4, step := step } }
def sSetupEnd := setup0 (iw 0x28 0) false
def sSetupHalt := setup0 (iw 0x37 0) true
/-- A setup section that ends in a running stroke. -/
def late (w : DWord) : State :=
  let s := setup0 w (opOf w.toNat == 0x37)
  { s with
    tick := { running := true, launched := true, stroke := 3 }, prog := { s.prog with phase := .running } }
def sEnding (halt : Bool) : State :=
  { at0 (iw 0x28 0) with cores := [(0, { phase := .ending, halting := halt, strokeIx := 7, sticky := 5 })] }

/-! ### The press and the vector unit -/

/-- 64 bytes of plate, counting from 1. -/
def bytes64 : FMap Byte := (List.range 64).map fun k => (k, BitVec.ofNat 8 (k + 1))
/-- Frame 0 for an owner. -/
def owned (o : Nat) (c : Core := {}) : Core := { c with tags := [(0, o)], plate := { cells := bytes64 } }
/-- 32 of a byte. -/
def lanes (r : Nat) (f : Nat → Nat) : FMap Word :=
  (List.range 64).map fun k => (64 * r + k, BitVec.ofNat 32 (f k))
def sLoadTile :=
  at0 (iw 0x00 (5 * 2 ^ 49 + 1 * 2 ^ 44 + 2 * 2 ^ 29))
    (owned 1 { base := [(2, 32)], mask := [(1, 0xF0F0F0F0F0F0F0F)] })
def sLoadTileM :=
  at0 (iw 0x00 (1 * 2 ^ 53 + 4 * 2 ^ 49 + 24 * 2 ^ 44 + 1 * 2 ^ 41 + 1 * 2 ^ 37 + 3 * 2 ^ 33 + 2 * 2 ^ 29))
    (owned 1 { base := [(1, 8), (2, 2^32 * 4 + 136), (3, 4000)], mask := [(1, 0x0123456789ABCDEF)] })
def sVmpLoad :=
  at0 (iw 0x08 (1 * 2 ^ 53 + 1 * 2 ^ 44 + 2 * 2 ^ 29)) (owned 1 { base := [(2, 32)], mask := [(1, 0x5A)] })
def tile1 : Tile :=
  { loaded := true, fmt := 1, kseg := 1, mask := 0xFD, elems := List.replicate 8 (List.replicate 16 0x3F80),
    scales := List.replicate 8 [] }
def sStream (rest : Nat) :=
  at0 (iw 0x01 (1 * 2 ^ 22 + 1 * 2 ^ 38 + 5 * 2 ^ 27 + rest))
    (owned 1
       { tiles := [(0, tile1), (3, { tile1 with mask := 3 })],
         acc := [(5, 0x3F800000), (7, 0x40000000), (6 + 2048, 0x40400000), (5 + 2048 * 8, 0x40000000)] })
def sVmpStream (rest : Nat) :=
  at0 (iw 0x09 (1 * 2 ^ 28 + 1 * 2 ^ 41 + 5 * 2 ^ 33 + rest))
    (owned 1
       { vtiles := [(0, tile1), (1, { tile1 with mask := 3 })],
         vacc := [(5, 0x3F800000), (7, 0x40000000), (6 + 256, 0x40400000)] })
def accs : FMap Word := [(3, 7), (4, 8), (5, 9), (2052, 10), (2048 * 8 + 4, 11)]
def sDrain (op rest : Nat) :=
  at0 (iw op (4 * 2 ^ 38 + 1 * 2 ^ 27 + rest))
    (owned 1 { acc := accs, vacc := [(3, 7), (4, 8), (5, 9), (260, 10)], base := [(1, 64)] })
def vregs3 : FMap Word :=
  lanes 1 (fun k => 0x3F800000 + k * 4096) ++ lanes 2 (fun k => 0x40000000 + k * 77) ++ lanes 3
    (fun k => 0xC0000000 + k)
def vcore : Core :=
  owned 2
    { vregs := vregs3, mask := [(1, 0xF0F0F0F00000FFFE), (2, 5)], ctx := [(1, 0x1234567890)],
      base := [(1, 8), (2, 4096)], record := 0x1122334455667788 }
def sValu (fn rest : Nat) :=
  at0 (iw 0x12 (1 * 2 ^ 53 + 4 * 2 ^ 48 + 1 * 2 ^ 43 + 2 * 2 ^ 38 + fn * 2 ^ 28 + rest)) vcore
def sVfn (fn : Nat) := at0 (iw 0x13 (1 * 2 ^ 53 + 2 * 2 ^ 48 + 1 * 2 ^ 43 + fn * 2 ^ 28 + 1 * 2 ^ 22)) vcore
def sVlane (fn : Nat) := at0 (iw 0x16 (1 * 2 ^ 53 + 1 * 2 ^ 48 + 1 * 2 ^ 43 + fn * 2 ^ 28 + 63 * 2 ^ 12)) vcore
def sVred (fn rest : Nat) := at0 (iw 0x14 (1 * 2 ^ 53 + 1 * 2 ^ 48 + 1 * 2 ^ 43 + fn * 2 ^ 28 + rest)) vcore
def sVmask (fn : Nat) := at0 (iw 0x15 (1 * 2 ^ 53 + 3 * 2 ^ 48 + 1 * 2 ^ 43 + 2 * 2 ^ 38 + fn * 2 ^ 28)) vcore
def sVld (fmt : Nat) :=
  at0 (iw 0x10 (1 * 2 ^ 53 + 1 * 2 ^ 48 + fmt * 2 ^ 19 + (if fmt < 16 then 0 else 2 * 2 ^ 40))) vcore
def sVst (fmt pred : Nat) :=
  at0 (iw 0x11 (pred * 2 ^ 53 + 1 * 2 ^ 48 + 1 * 2 ^ 44 + fmt * 2 ^ 19 + (if fmt < 16 then 0 else 2 * 2 ^ 40)))
    vcore
def sSys (fn pred : Nat) := at0 (iw 0x17 (pred * 2 ^ 53 + 1 * 2 ^ 48 + 1 * 2 ^ 44 + fn * 2 ^ 19)) vcore

/-! ### DMA and transfers -/

/-- A DMA instruction: engine, descriptor index 0, B1 and B2, flag 5 where `fv`. -/
def dmaWordOf (op eng : Nat) (fv : Bool) : DWord :=
  iw op (eng * 2 ^ 52 + 1 * 2 ^ 35 + 2 * 2 ^ 31 + 5 * 2 ^ 25 + (if fv then 2 ^ 24 else 0))
/-- Core 0 at a DMA instruction with a descriptor behind its code. -/
def sDma (op eng : Nat) (fv : Bool) (desc : List Nat) (c : Core := {}) : State :=
  let s := at0 (dmaWordOf op eng fv) c
  { s with cores := [(0, { coreAt s 0 with
      store :=
        (0, dmaWordOf op eng fv) ::
          (desc.zipIdx.filterMap fun p => if p.1 = 0 then none else some (16 + p.2, dw p.1)) })] }
/-- A descriptor with a first word of kind, version 1, sides `sp` (1 the source on the plate, 2 the destination). -/
def desc0 (kind sp : Nat) : Nat := kind + 1 * 2 ^ 8 + sp * 2 ^ 17
/-- Plate to plate: one row of 32 bytes from 0 to 64. -/
def rowDesc (kind : Nat) : List Nat := [kind + 1 * 2 ^ 8 + 3 * 2 ^ 17, 0, 64, 32, 0, 0, 0, 0]
def sRow := sDma 0x18 1 false (rowDesc 1) (owned 4)
def sRowFv := sDma 0x18 0 true (rowDesc 1) (owned 3)
def dmaOthers : List State :=
  [sDma 0x19 0 true (rowDesc 2), sDma 0x1A 1 false (rowDesc 3), sDma 0x1B 1 false (rowDesc 4), sDma 0x1C 0 false (rowDesc 5),
  sDma 0x18 0 false [1 + 2^8 + 2^18, 2^21, 64, 32, 0, 0, 0, 0] (owned 3) ]

/-- XFER word: gate M0, base B1, length, target field [31:20], slot, flag, fv, remote bit. -/
def xferWord (op target slot flag : Nat) (fv : Bool) (rest : Nat := 0) : DWord :=
  iw op (1 * 2 ^ 49 + 1 * 2 ^ 33 + target * 2 ^ 20 + slot * 2 ^ 8 + flag * 2 ^ 2 + (if fv then 2 else 0) + rest)
def meshCore : Core := owned 5
def sSend := at0 (xferWord 0x20 (2 * 64 + 0) 7 0 false) meshCore
def sSendFlag := at0 (xferWord 0x20 (1 * 64 + 0) 7 3 true) { meshCore with flagSet := 8, mask := [(1, 2)] }
def sSendGated :=
  at0 (xferWord 0x20 (1 * 64 + 0) 7 3 true (1 * 2 ^ 53)) { meshCore with flagSet := 8, mask := [(1, 2)] }
def sSendWait := at0 (xferWord 0x20 (1 * 64 + 0) 7 3 true) meshCore
def grp (s : State) : State := { s with prog := { s.prog with groups := [0x1FF, 0xE] } }
def sMcast := grp (at0 (xferWord 0x22 1 7 0 false) meshCore)
def sMcastWait := grp (at0 (xferWord 0x22 1 7 3 true) meshCore)
def sRecv :=
  at0 (xferWord 0x21 0 7 3 true)
    { meshCore with port := [{ dst := 0, slot := 7, src := .core 1, len := 1, data := List.replicate 64 9 }] }
def sRecvNoFlag := at0 (xferWord 0x21 0 7 3 false) meshCore

def coll0 : CollEntry :=
  { id := 7, op := 0, combine := 0, fmt := 9, engine := 0, count := 16, deliverSlot := 9, deliverGroup := 1 }
def planOf (ranks : List Nat) : PlanCommon × PlanDevice :=
  ({ ranks := ranks, colls := [coll0] }, { flows := [(7, 0x8005)] })
def remote (w : DWord) (r : Route) : State :=
  let s := at0 w meshCore
  { s with fab := { s.fab with id := 3, rank := 0, pkey := 9, plan := some (planOf [3, 4]) }
           prog := { s.prog with routes := [r], groups := [0x1FF, 0xE] } }
def sSendFar (vc : Nat) :=
  remote (xferWord 0x20 0 7 0 false (2 ^ 32)) { device := 4, vx := 1, vy := 0, vc := vc }
def sSendColl := remote (xferWord 0x20 0 7 0 false (2 ^ 32)) { device := 3, vx := 0x3F, vy := 0, vc := 1 }
/-- A SEND to a collectives engine of another device, and one to a core of it whose window has bytes. -/
def sSendEngine := remote (xferWord 0x20 0 7 0 false (2 ^ 32)) { device := 4, vx := 0x3F, vy := 0, vc := 1 }
def sSendCollFull : State :=
  { sSendColl with fab := { sSendColl.fab with coll := [(7, [(1, List.replicate 64 2)])] } }

def dlv (src : Source) (data : List Byte) : Delivery :=
  { dst := 0, slot := 7, src := src, len := data.length / 64, data := data }
def sArrive (binds : FMap (Option Source)) : State :=
  { at0 (iw 0x30 0) { meshCore with recvs := [{ slot := 7, len := 1 }], binds := binds } with
    transit :=
      [dlv (.core 2) (List.replicate 64 1), dlv (.core 1) (List.replicate 64 2),
       dlv (.core 1) (List.replicate 64 3)] }
def sComplete (src : Source) (fv : Bool) : State :=
  at0 (iw 0x30 0) { meshCore with recvs := [{ slot := 7, addr := 128, len := 1, flag := 3, fv := fv }]
                                  flagPend := 8, port := [dlv src (List.replicate 64 9)] }
def sMoved (fv : Bool) : State :=
  at0 (iw 0x30 0) { meshCore with dma := [(1, [{ moved := true, flag := 6, fv := fv }, {}])], flagPend := 64 }

/-! ### Strokes and launches -/

def strokes4 : List StrokeEnt :=
  [{ budget := 20000, rpt := 1, checkpoint := true }, { budget := 30000, profile := 0 }, { budget := 25000 }]
/-- A batch program at the end of stroke 3. -/
def ranStroke : State :=
  let s := at0 (iw 0x30 0)
  { s with
    prog :=
      { s.prog with
        strokes := strokes4, entry := 0, rep := 1, committed := 1, window := [(4, 64)], epoch := 1 }
    tick :=
      { s.tick with
        fixed := some 2, ended := true, alone := true, launch := 500, budget := 20000, runQuant := 16
        lead := 1200, commits := [(2, 600), (3, 0)], stopDue := true, check := 2, round := 2 }
    cores :=
      [(0, { phase := .ended, inSetup := false, staged := [(4, 3)], flagSet := 7, sticky := 3, strokeIx := 3
             port := [dlv (.core 1) (List.replicate 64 9)] }),
       (1, { phase := .halted, inSetup := false }), (2, { phase := .ended }), (3, { phase := .ended })]
    links := [(0, { state := .up, vcOper := 7 })]
    fab := { s.fab with pkey := 9, id := 3, stopSeen := [(3, 2), (4, 1)] } }
/-- A step program whose run has ended with every core halted. -/
def ranStep : State :=
  let s := ranStroke
  { s with
    prog := { s.prog with
      step := true, entry := 1, rep := 0, table := { shapes := [{ first := 1, entries := 1, entry := 5 }] } }
    cores := (List.range 4).map fun v => (v, { phase := .halted, inSetup := false, staged := [(4, 3)], flagSet := 7 }) }
/-- A program with a record held. -/
def dueState (step : Bool) (part : PartState) : State :=
  let s := ranStroke
  { s with
    prog :=
      { s.prog with
        phase := .due, step := step, l1 := 50000
        record := some { l1 := 50000, quant := 16, lead := 1200, path := 3, syncLimit := 12, epoch := 2 }
        table := { shapes := [{ first := 1, entries := 1, entry := 5 }] } }
    tick :=
      { s.tick with
        launched := false, ended := false, fixed := none, commits := [], alone := part = .unassigned,
        sync := .locked, depth := 1 }
    fab := { s.fab with part := part }
    cores := [(0, { phase := .ready, inSetup := false, halting := true }), (1, { phase := .setup })] }
def inStroke (alone : Bool) : State :=
  { ranStroke with
    tick := { ranStroke.tick with fixed := none, ended := false, alone := alone, round := 1, check := 0 } }
def sHoldEnded : State := { inStroke true with tick := { (inStroke true).tick with ended := true } }
def sHoldLast : State := { inStroke false with tick := { (inStroke false).tick with round := 255 } }
def sDecide (r : Nat) : State := { inStroke true with tick := { (inStroke true).tick with round := r } }
/-- A partition member in a stroke, links 0 and 2 up. -/
def member (live : Bool) : State :=
  let s := inStroke false
  { s with links := [(0, { state := .up }), (2, { state := .up })]
           prog := { s.prog with phase := if live then .running else .done }
           fab := { s.fab with part := .running } }
def prio0 : Prio := { pkey := 9, epoch := 1, origin := 4, stroke := 3, round := 3, code := 5, cause := 6 }
def sDueMember : State :=
  { member true with
    prog := { (member true).prog with phase := .due, record := some {} },
    tick := { (member true).tick with launched := false } }
/-- A device that takes its time from link 2. -/
def synced (st : SyncState) (stepped live : Bool) (good : Nat) : State :=
  let s := member live
  { s with
    tick :=
      { s.tick with
        sync := st, uplink := 2, stepped := stepped, depth := 1, good := good, missed := 3, gtc := 10000 } }
def masterState : State :=
  { member true with
    tick := { (member true).tick with master := true, uplink := 2, sync := .locked, sentAt := 100 } }

/-! ### Launch agreement, commits and device memory -/

/-- A loaded batch program. -/
def loadedAlone : State :=
  { State.reset with
    die := { d48 := true }, stl := { state := 1 }
    tick := { running := true, gtc := 1000 }
    prog :=
      { phase := .loaded, grid := 1, cores := 4, devices := 1, strokes := strokes4,
        args := { notBefore := 2000, outBytes := 0 }, digest := 77 } }
/-- A member, or the coordinator, of a partition of two. -/
def loadedMember (coord : Nat) : State :=
  { loadedAlone with
    fab :=
      { id := 3, pkey := 9, part := .assigned, coord := coord, rank := 1, planDig := 55, partKey := some 1,
        plan := some ({ header := { pkey := 9, n := 2, coord := coord }, ranks := [2, 3] }, {}) }
    tick := { loadedAlone.tick with master := true } }
def goodRecord : LaunchRec :=
  { epoch := 4, l1 := 60000, quant := 16, lead := 1200, planDigest := 55, imageDigest := 77, devices := 2,
    coord := 2 }
def auth2 : Auth := { sender := 2, seq := 1 }
/-- The coordinator with its launch agreed by no member or by all. -/
def waitsAcks (acks : List (Nat × Nat)) : State :=
  let s := loadedMember 3
  { s with
    prog := { s.prog with phase := .due, record := some goodRecord, l1 := 60000, acks := acks },
    tick := { s.tick with alone := false } }
def commitState (k : Nat) (step : Bool) (d : Option Decision) : State :=
  let s := ranStroke
  { s with tick := { s.tick with commits := [(k, 600), (k + 1, 0)] }
           prog := { s.prog with step := step, committed := k - 1 }
           srv := { s.srv with decision := d, saved := d.map fun _ => {} } }
def memState : State :=
  { loadedAlone with
    memory :=
      { zeroed := true, ddr := { cells := [(64, 5)], flips := [(8, 1), (9, 0x300000000000000000), (300, 3)] }
        chans := [(0, { score := 9, ue := 3 }), (7, { score := 1 })]
        spares := [(2, { pos := 4, state := 1, progress := 50 }), (3, { pos := 8, state := 3, progress := 99 })]
        regions := [(0, { valid := true, kind := 0, base := 0, limit := 0 })] } }
def scrubState (fl : FMap (BitVec 72)) : State :=
  { memState with memory := { memState.memory with ddr := { cells := [(64, 5)], flips := fl } } }

/-! ### Registers -/

def regState : State := { memState with
  heaths :=
    [(0, { on := true, state := .up, runtime := 1, fuse := 2, map := 5, healthy := 24, ce := 3 }),
     (5, { fuse := 1, droop := 9, lossCause := 3, ce := 7 }), (47, { on := true, state := .short })]
  tick := { memState.tick with gtc := 0x123456789ABCDEF01, gtcHi := 7 }
  memory :=
    { memState.memory with
      poison := [{ addr := 0x123456789A8, kind := 2, step := 5 }, { addr := 64 }], overflow := true,
      regions :=
        [(0, { valid := true, kind := 4, base := 0, limit := 9 }),
         (1, { valid := true, kind := 0, slot := 3, base := 10, limit := 19, created := true }),
         (62, { valid := false, base := 5 })] } }
def noProg (s : State) : State := { s with prog := {} }
def proofState : State := { memState with
  memory := { memState.memory with ddr := { cells := [] } }
  proofs :=
    { base := 16, size := 4, pBase := 100, pSize := 1,
      store := [{ q := 2, placed := true, proof := { tokens := 5, last := 3 } }] } }
def adState : State := noProg { memState with load := { adBase := 100 } }

/-! ### Functions, rings and descriptors -/

/-- A context table with submission ring 0, completion ring 0 and the event ring. -/
def ctxTable : Fetch := { words := (List.range 516).map fun i => if i = 1 ∨ i = 257 ∨ i = 513 then 38 else 0 }
def fnState (f : Nat) (x : Fn) : State := { loadedAlone with hif := { fns := [(f, x)], link := {} } }
def ring6 : Ring := { valid := true, base := 4096, log2 := 6 }
def activeFn : Fn :=
  { enable := true, state := 1, gen := 3,
    rings :=
      [(0, { ring6 with tail := 1 }), (64, { ring6 with irq := true, coalTicks := 9, unsig := 1, vector := 2 }),
       (128, ring6)] }
def sActive (f : Nat) : State :=
  { fnState f activeFn with
    load :=
      { queue := [{ kind := 1, who := { fn := f } }, { kind := 1, who := { fn := 9 } }]
        slots := [(0, { state := .resident, base := 2 ^ 21, near := 64 }), (1, { state := .failed }), (2, {})] } }
def pollState (f : Nat) : State :=
  { sActive f with
    hif :=
      { (sActive f).hif with
        link := { cache := false },
        msix := [(msixKey f 2, { masked := false }), (msixKey f 3, { pend := true })] } }
def lostState : State := fnState 1 { activeFn with dropped := 4 }
def heldState : State :=
  fnState 1
    { activeFn with
      rings := [(0, ring6), (64, { ring6 with written := 64 }), (128, ring6)],
      held := [{ ring := 64, words := List.replicate 8 1 }] }

/-! Descriptors -/
def mkDesc (ws : List Nat) : BitVec 512 :=
  BitVec.ofNat 512 ((ws.zipIdx.map fun p => p.1 * 2 ^ (64 * p.2)).foldl (· + ·) 0)
/-- Word 0: version 1, type, completion ring 0. -/
def d0 (ty rest : Nat) : Nat := 1 + ty * 2 ^ 8 + rest
/-- A step program that serves slot 0, with function 0 and 1 at their rings. -/
def serving : State :=
  { sActive 0 with
    hif := { (sActive 0).hif with fns := [(0, activeFn), (1, activeFn)] }
    load :=
      { slots := [(0, { state := .resident })],
        adapters := [(5, { state := .live, id := 3, version := 2, slot := 0 })] }
    prog :=
      { loadedAlone.prog with
        phase := .running, step := true, binds := [{ kind := 0, slot := 0 }], table := { contextMax := 100 } }
    srv :=
      { enable := true,
        books :=
          { tenants := [(2, { valid := true, fn := 1, cost := 1, rate := 5, burst := 9 })],
            reqs := [(0, { state := .queued, fn := 1, tag := 7 }), (2, { state := .ending, fn := 1, tag := 8 })] } } }
def idle : State :=
  { serving with
    prog := { serving.prog with phase := .done },
    load :=
      { slots := [(0, { state := .resident, near := 64, base := 2 ^ 21, root := 1 })], adUnits := 1,
        adCount := 4, adEnable := true },
    stl := { state := 1, identity := true } }
def idleBusy : State := { idle with load := { idle.load with cur := some { kind := 1, slot := 3 } } }
def dSubmit (ten : Nat) : BitVec 512 := mkDesc [d0 1 (ten * 2 ^ 32), 7, 0x1000, 4 + 8 * 2 ^ 32, 99, 0, 0, 0]
def dCancel (i tag : Nat) : BitVec 512 := mkDesc [d0 2 (i * 2 ^ 32), 70, tag, 0, 0, 0, 0, 0]
def dBudget : BitVec 512 := mkDesc [d0 7 (3 * 2 ^ 32 + 2 ^ 44 + 1 * 2 ^ 48), 70, 5 + 6 * 2 ^ 32, 7, 0, 0, 0, 0]
def dRetire : BitVec 512 := mkDesc [d0 6 (3 * 2 ^ 36), 70, 2, 0, 0, 0, 0, 0]
def dQuery (k i : Nat) : BitVec 512 := mkDesc [d0 10 (k * 2 ^ 32 + i * 2 ^ 40), 70, 0x2000, 0, 0, 0, 0, 0]
def prompt4 : Fetch := { words := [0x200000001, 0x400000003] }
def dLoad (ty : Nat) : BitVec 512 := mkDesc [d0 ty 0, 70, 0, 0, 0, 0x3000, 0, 0]
def dLaunch (args : Nat) : BitVec 512 := mkDesc [d0 8 0, 70, 0x8000, 4096, 5, args, 0, 0]
def dAbort : BitVec 512 := mkDesc [d0 9 0, 70, 0, 0, 0, 0, 0, 0]
/-- A load block: slot, near bytes, base, root. -/
def loadBlock (slot near base at_ ad : Nat) : Fetch :=
  { words :=
      [dw (1 + slot * 2 ^ 8 + 2 * 2 ^ 16), dw near, 0, dw base, 0, 0, dw at_, 0, dw ad, 0, 0, 0, 5, 6, 7, 8] }

/-- A load block with other bits of word 0: the set at bit 11, the policy at bit 19. -/
def blockOf (set policy slot near at_ : Nat) : Fetch :=
  let b := loadBlock slot near (if at_ = 0 then 2 ^ 22 else 0) at_ 0
  { b with words := dw (1 + slot * 2 ^ 8 + set * 2 ^ 11 + 2 * 2 ^ 16 + policy * 2 ^ 19) :: b.words.drop 1 }
def adapterBlock (policy : Nat) : Fetch := blockOf 0 policy 0 64 9

/-! ### Fuses and the guard sequencer -/

/-- Fuses with changes left, and firmware of SVN 9 running. -/
def fuseState : State :=
  { loadedAlone with
    prog := {}, lcf := { rollLeft := 5, left := 2, lockLeft := 1, state := 2, unlocked := true, scope := 3 }
    stl := { state := 1, identity := true, svn := 9, sessions := [{ id := 3 }] }
    heaths := [(2, { runtime := 6 })]
    cores := [(0, { acc := [(0, 5)], plate := { cells := [(3, 1)] } })]
    memory := memState.memory }
def fuseBusy (cmd v : Nat) : State :=
  { fuseState with lcf := { fuseState.lcf with busy := true, go := true, run := (cmd, v) } }
/-- A device with work of every kind, for the guard. -/
def guardState : State :=
  { ranStroke with
    guard := { arg := 5 }, memory := memState.memory
    heaths := [(0, { on := true, state := .up, mirror := 3 }), (2, { on := true, state := .up })]
    cores :=
      [(0, { phase := .ended, inSetup := false, acc := [(0, 5)], plate := { cells := [(3, 1)] } }),
       (1, { phase := .halted, inSetup := false })]
    hif := { fns := [(0, activeFn), (1, activeFn)], link := {}, tracker := [4, 5] }
    stl := { state := 1, identity := true, sessions := [{ id := 3 }], ideKeys := true }
    srv :=
      { books :=
          { reqs := [(0, { state := .queued, fn := 1, tag := 7 }), (2, { state := .ending, fn := 1, tag := 8 })] },
        cancels := [{ who := { fn := 1, gen := 3 } }] }
    load := { queue := [{ kind := 1, who := { fn := 1, gen := 3 }, answer := true }] }
    proofs := { due := some {} } }
def guardIdle : State :=
  { guardState with
    tick := { guardState.tick with launched := false }, transit := [dlv (.core 1) [1]],
    hif := { guardState.hif with link := { rate := 0 } } }

/-! ### Links -/

def tx (vc kind : Nat) (data : List Byte) : TxFlit :=
  { vc := vc, kind := kind, words := data.length / 8, data := data, pkey := 9, isOwn := true }
/-- A link with traffic queued, two flits unacknowledged and one received. -/
def busyLink (st : LinkState) : Link :=
  { state := st, vcOper := 7, proto := 1, enable := true, since := 10, credits := [(0, 3), (8, 2)], before := .up
    queue := [(0, [tx 0 4 (List.replicate 8 1)]), (2, [tx 2 4 (List.replicate 40 2)])]
    replay := [(5, tx 0 4 (List.replicate 8 7), 0), (6, tx 2 4 (List.replicate 8 7), 1)], nextSeq := 7,
    expect := 3
    rx := [(0, [tx 0 4 (packetHeader { dst := 4 })])], timer := 20 }
def linkState (l : Link) (live : Bool) : State :=
  { loadedAlone with
    prog := { loadedAlone.prog with phase := if live then .running else .done }
    fab := { id := 3, pkey := 9 }, links := [(0, l), (14, l)] }
def idleLink (l : Link) : Link := { l with queue := [], credits := [] }
def prioLink (k : Nat) : Link := { busyLink .up with prio := { stop := some (prio0, k) } }
def replayLink : Link := { busyLink .up with replaying := some (5, .timer) }
def discLink : Link := { busyLink .discovery with queue := [], vcOper := 0 }
/-- A RECORD that passes for link 0 of device 3, and what its plan says. -/
def goodDisc : Disc := { axis := 0, link := 6, device := 3 + 2 ^ 6, identity := 77, vcMask := 15 }
def plannedLink : Link := { discLink with plan := { peer := 3 + 2 ^ 6, peerLink := 6, planned := true } }
/-- The flit that a peer with link `l` sends. -/
def peerFlit (kind seq vc key : Nat) (ack : Nat) : Flit :=
  wireFlit { busyLink .up with expect := ack + 1 }
    { vc := vc, kind := kind, words := 4, pkey := key, data := packetHeader { dst := 3 } } seq

/-! ### Packets -/

def planTwo : PlanCommon × PlanDevice :=
  ({ header := { pkey := 9, n := 2, coord := 3, master := 3 }, ranks := [3, 4], groups := [0], colls := [{ coll0 with count := 16 }]
     gTable :=
       [{ a := 0, b := 1,
          entries := [{ devA := 3, linkA := 1, devB := 2 ^ 12, spare := false }] ++ List.replicate 7 {} }],
     digests := [0, 0] },
   { links := List.replicate 36 {}, tx := [(3, 0x8105)], rx := [(5, 0x4000)] })
/-- A device of a partition of two, with packets, tags and windows open. -/
def packetState : State :=
  { loadedAlone with
    prog := { phase := .done, grid := 1, cores := 4, groups := [0x1FF, 0xE] }
    memory := { memState.memory with ddr := { cells := [(64, 5)] } }
    links :=
      [(0, { busyLink .up with queue := [] }), (7, { busyLink .up with queue := [] }),
       (15, { busyLink .up with queue := [] }), (3, { busyLink .off with queue := [] })]
    fab :=
      { id := 3, pkey := 9, part := .assigned, plan := some planTwo, partKey := some 1, collector := 3
        ringSize := 1, ringBase := 1
        tags := [(2, { busy := true, epoch := 1, since := 50 }), (4, { epoch := 1 })],
        used := [(8 * 4 + 2, 100)], score := 400, suspect := true } }
def pk (vc : Nat) (last : Bool) (data : List Byte) : Packet :=
  { vc := vc, pkey := 9, dst := 3, src := 4, slot := 7, lastPkt := last, len := data.length, data := data,
    vx := 1, vy := 0 }
def pkReq (vc addr : Nat) (data : List Byte) : Packet :=
  { pk vc true data with addr := addr, len := if data = [] then 16 else data.length }
def pkTag (tag epoch : Nat) : Packet := { pk 2 true [1, 2] with tag := tag, epoch := epoch, status := 1 }
def written : State :=
  { packetState with memory := { packetState.memory with ddr := memPut packetState.memory.ddr 128 [7, 8] } }
def collWaits (l : List (Nat × List Byte)) : State :=
  { packetState with fab := { packetState.fab with coll := [(7, l)] } }
/-- Link 0 with one packet received on VC `vc`. -/
def arrived (vc : Nat) (p : Packet) (disc : Bool) : State :=
  { packetState with
    links :=
      (0, { busyLink .up with queue := [], rx := [(vc, (packetFlits { p with vc := vc } false 0).map fun f => { f with discard := disc }), (0, [])] }) :: packetState.links.drop 1 }
def transitPk (dst : Nat) : Packet :=
  { dst := dst, src := 5, pkey := 9, stage := 1, via := 0x7FF, lastPkt := true, len := 8,
    data := List.replicate 8 3 }

/-! ### Messages with the MAC of their key -/

/-- The MAC that its key gives a message in a state, and the message with it. -/
def macOf (s : State) (a : Auth) : Digest := mgmtMac s a.session (mgmtHead a.mver a.mtype a.session a.seq ++ a.body)
def withMac (m : Digest) (a : Auth) : Auth := { a with mac := m }
def signed (s : State) (a : Auth) : Auth := withMac (macOf s a) a

theorem macOk_eq (s : State) (a : Auth) : macOk s a = (a.mac == macOf s a) := by unfold macOk macOf; rfl

/-- A message with its MAC passes, if its key is held and its number is new. -/
theorem withMac_ok (s : State) (k : KeyUse) (a : Auth) (m : Digest) (e : macOf s a = m)
    (h : (keyFits k a && keyHeld s a.session && decide (topSeqOf s a < a.seq)) = true) :
    authOk s k (withMac m a) = true := by
  obtain ⟨sender, session, seq, mver, mtype, body, mac⟩ := a
  have e' : macOf s (withMac m ⟨sender, session, seq, mver, mtype, body, mac⟩) = m := by
    unfold withMac
    unfold macOf at e ⊢
    exact e
  unfold authOk
  rw [macOk_eq, e']
  unfold withMac
  dsimp only
  rw [beq_self_eq_true, Bool.and_true]
  cases k <;> exact h

theorem signed_ok (s : State) (k : KeyUse) (a : Auth)
    (h : (keyFits k a && keyHeld s a.session && decide (topSeqOf s a < a.seq)) = true) :
    authOk s k (signed s a) = true := by
  unfold signed
  exact withMac_ok s k a _ rfl h

theorem signed_accepts (s : State) (k : KeyUse) (a : Auth) (r : s.stl.state = 1) (v : a.mver = 1)
    (h : (keyFits k a && keyHeld s a.session && decide (topSeqOf s a < a.seq)) = true) :
    Accepts s k (signed s a) := by
  have m : (signed s a).mver = 1 := by
    obtain ⟨sender, session, seq, mver, mtype, body, mac⟩ := a
    unfold signed withMac
    dsimp only at v ⊢
    exact v
  unfold Accepts
  exact ⟨r, signed_ok s k a h, m⟩

/-! ### The fabric manager -/

def fm : Auth := { sender := 2, session := 3, seq := 5 }
/-- A member's message, and a partner's. -/
def mm : Auth := { sender := 2, seq := 5 }
def pm : Auth := { sender := 2, session := 1, seq := 5 }
/-- A device whose plan memory holds a plan that passes. -/
def planState : State :=
  { guardIdle with
    prog := {}, tick := { guardIdle.tick with launched := false }
    stl := { state := 1, identity := true, sessions := [{ id := 3 }] }, transit := []
    links := [(0, { busyLink .up with plan := { peer := 1 } }), (1, { busyLink .fenced with fence := true })]
    load :=
      { slots := [(0, { state := .resident, base := 2 ^ 21, near := 64 })], adapters := [(1, {})],
        queue := [{ kind := 1, who := { fn := 1, gen := 3 } }] }
    srv := { books := { tenants := [(1, { valid := true })] } }
    fab :=
      { id := 3, pkey := 9, part := .assigned, partKey := some 1, common := planTwo.1, device := planTwo.2 } }
def planRunning : State := { planState with prog := ranStroke.prog, tick := ranStroke.tick }
/-- No plan in force, link 0 a hedge. -/
def unassigned : State :=
  { planState with fab := { planState.fab with part := .unassigned, plan := none }
                   links := [(0, { busyLink .fenced with fence := true })] }
/-- A device that a FENCE_DEVICE has fenced, and one that is torn down. -/
def fencedState : State := { planState with fab := { planState.fab with part := .fenced } }
def withPart (p : PartState) : State :=
  { planState with fab := { planState.fab with part := p, coord := 3, waitMgmt := [(2, 0), (5, 0)] } }
/-- A coordinator in a stroke. -/
def coordRuns : State :=
  { inStroke false with
    stl := { state := 1, sessions := [{ id := 3 }] }
    fab := { id := 3, pkey := 9, part := .running, coord := 3, partKey := some 1, plan := some planTwo }
    links := [(0, { busyLink .up with queue := [] }), (1, { state := .up })] }
def coordDue : State :=
  { coordRuns with
    prog := { coordRuns.prog with phase := .due, l1 := 60000 },
    tick := { coordRuns.tick with launched := false } }
def coordAccepted : State :=
  { coordRuns with
    prog := { coordRuns.prog with phase := .loaded }, tick := { coordRuns.tick with launched := false } }
def memberAborts : State :=
  { coordRuns with fab := { coordRuns.fab with coord := 2, abortFor := some { fn := 1 } } }
def stopping (fencing : Bool) (ab : Bool) : State :=
  { coordRuns with
    prog :=
      { coordRuns.prog with
        fencing := fencing, fencePorts := 2, abort := if ab then some { op := 0x12 } else none } }

/-! ### The load path -/

/-- A load set of two with an operation on the load path. -/
def op1 (kind set : Nat) : LoadOp :=
  { who := { fn := 1, gen := 3 }, kind := kind, slot := 2, ad := 4, set := set, near := 3 * 2 ^ 20 + 64,
    base := 2 ^ 22, root := 9 }
def loadState (o : Option LoadOp) (started : Bool) : State :=
  { loadedAlone with
    prog := {}, memory := { memState.memory with ddr := { cells := [(64, 5), (2 ^ 22 + 3, 1)] } }
    hif := { fns := [(1, activeFn)], link := {} }
    stl := { state := 1 }, fab := { id := 3, pkey := 9, partKey := some 1 }
    load :=
      { cur := o, started := started, readies := if started then [] else [0], since := 7
        hashes := if started ∧ o.any (fun x => 2 ^ 20 < x.near ∧ x.split = 0) then
            [(0, some 4), (1, some 4)]
          else []
        slots :=
          [(0, { state := .resident, near := 64 }), (2, { state := .loading, base := 2 ^ 22, near := 64 }),
           (3, { state := .zeroing, base := 2 ^ 22, near := 64 })]
        adapters := [(4, { state := .zeroing })], adUnits := 1, adBase := 9, adCount := 8, adEnable := true } }
def withLoad (s : State) (f : Load → Load) : State := { s with load := f s.load }
/-- One leaf of 64 bytes, whose root is its hash. -/
def smallOp (root : Digest) : LoadOp := { op1 1 1 with near := 64, root := root }
def leafData : FetchBytes := { bytes := List.replicate 64 7 }
def rangeOp : LoadOp := { op1 1 2 with split := 1, first := 0, leaves := 1, near := 2 ^ 22 }
def stepLive : State :=
  { serving with
    stl := { state := 1 }, fab := { id := 3, pkey := 9, partKey := some 1 }
    prog :=
      { serving.prog with
        kv := some { valid := true, base := 1, limit := 1 },
        table := { kvBytes := 64, shapes := [{ d := 2 }] } }
    srv :=
      { serving.srv with
        areaBase := 1, areaSize := 4, books := { serving.srv.books with fallow := [1, 2], taken := [1, 2] } } }
def swapped : State :=
  withLoad (loadState none false) fun l =>
    { l with swap := some { op1 2 1 with slot := 0 }, slots := [(0, { state := .swapping })] }
def queuedLoad : State :=
  withLoad (loadState none false) fun l =>
    { l with queue := [{ op1 1 1 with slot := 1, base := 2 ^ 23 }, op1 1 1] }
def waitingAd : State :=
  withLoad (loadState (some { op1 3 1 with at_ := 50, id := 6, version := 7 }) false) fun l =>
    { l with waiting := true }

/-! ### Steps, pairs, images and the stile -/

/-- A step program at its boundary, with nothing bound and no request. -/
def boundary (reqs : FMap Req) : State :=
  { stepLive with
    tick := { ranStroke.tick with fixed := none, ended := false, rimBusy := true, check := 0 }
    cores := ranStroke.cores
    srv :=
      { stepLive.srv with
        curStep := 3, jrnDone := 2, step := 2,
        books := { tenants := stepLive.srv.books.tenants, reqs := reqs, freeCut := 8 } } }
def intakeState : State :=
  boundary [(0, { state := .intake, prompt := [1, 2, 3], fn := 1 }), (1, { state := .queued, prompt := [1] })]
/-- A request whose prompt fills two blocks of the prefix index. -/
def lookingUp : State :=
  let s := boundary [(0, { state := .intake, prompt := List.replicate 40 1, fn := 1 })]
  { s with srv := { s.srv with pfxMode := 1, pageTok := 0 } }
/-- A step's boundary with one request open, of a tenant whose bucket holds `level`; two variants have a slot. -/
def admits (r : Req) (level : Nat) (reject : Bool) : State :=
  let s := boundary [(0, { r with tenant := 2, fn := 1, gen := 3, prompt := [1, 2, 3], maxNew := 4, pages := [4] })]
  { s with
    prog :=
      { s.prog with table :=
          { s.prog.table with
            chunk := 2, shapes := [{ ticks := 9 }, { d := 1, p := 2, ticks := 20 }, { d := 2, p := 4, ticks := 30 }] } }
    proofs := { base := 1, size := 4, pSize := 1, iSize := 1 }
    srv :=
      { s.srv with books :=
          { s.srv.books with tenants :=
              [(2, { valid := true, fn := 1, cost := 256, burst := 9, level := level, reject := reject,
                     refilled := s.tick.gtc })] } } }
def queuedReq : Req := { state := .queued, storeLen := 1 }
def decodeReq : Req := { state := .decode, firstStep := 1, prefilled := 3, output := [7] }
def prefillReq : Req := { state := .prefill, firstStep := 1, prefilled := 1 }
def dec3 : Decision :=
  { step := 3, stroke := 3, outs := [{ req := 0, done := some 0, token := some 5, idx := 1 }] }
def journalState (gate : Bool) : State :=
  let s := boundary [(0, { state := .ending, fn := 1, gen := 3, prompt := [1] })]
  { s with
    srv := { s.srv with journal := [dec3, { dec3 with step := 4 }], jrnSize := 1 },
    proofs := { pairGate := gate, pairState := if gate then 1 else 0 } }
def headState : State :=
  { stepLive with
    proofs := { due := some { step := 6, head := 3 }, iSize := 1 }, stl := { state := 1, identity := true } }
def pairState (own : List (Nat × Digest × Nat)) : State :=
  { stepLive with
    fab := { stepLive.fab with pairKey := some 2 }
    proofs :=
      { pairState := 1, ownHeads := own, bindSince := some 900, gated := [dec3, { dec3 with step := 4 }],
        store := [{ q := 0, proof := { last := 3 } }] } }
/-- The header words of an image, and a core directory entry. -/
def imgWords : List Nat :=
  [0x4D495657 + 1 * 2 ^ 32 + 1 * 2 ^ 40 + 2 * 2 ^ 56, 37824, 1 + 1152 * 2 ^ 32, 1, 0, 256, 320, 960, 0, 0, 0, 0]
def coreEntry : List Byte := leBytes 8 8 ++ leBytes 8 256 ++ leBytes 8 0 ++ leBytes 8 0
def accepted (im : List Byte) : State :=
  { memState with
    die := { d48 := true, effGrade := 1 }
    prog := { phase := .accepted, image := im, imgBytes := im.length, asker := { fn := 1 } }
    heaths := (List.range 48).map fun h => (h, { on := true, state := .up })
    memory := { memState.memory with regions := [(0, { valid := true, kind := 4, base := 0, limit := 3 })] }
    proofs := { base := 1, size := 4, pSize := 1, iSize := 1 } }
def hostState (hdm : Bool) : State := { memState with hif := { hdm := hdm, link := {} } }
def stileState : State :=
  { guardIdle with
    stl := { state := 1, identity := true, anchor := 5, sessions := [{ id := 9 }] },
    lcf := { unlocked := false, until_ := 50 } }
def romState : State := { State.reset with pwr := {} }

/-! ### Resets and power -/

def resetState : State :=
  { guardIdle with
    heaths :=
      [(0, { on := true, state := .up, mirror := 3 }), (2, { state := .lost, lossCause := 4, on := true })]
    lcf := { maps := [(3, 5)], rollLeft := 7 },
    stl := { state := 1, identity := true, sessions := [{ id := 3 }], lock := true }
    load := { slots := [(0, { state := .resident }), (1, { state := .zeroing })], cur := some {} }
    memory :=
      { memState.memory with
        ddr := { cells := [(64, 5), (2 ^ 21 + 3, 9)] },
        regions :=
          [(0, { valid := true, kind := 0, slot := 0 }),
           (1, { valid := true, kind := 0, slot := 1, base := 1, limit := 1 })] } }
def booting (boot : Nat) : State :=
  { State.reset with
    pwr := { boot := boot }, stl := { state := 1 }, die := { d48 := decide (boot = 2) }
    tick := { running := decide (boot = 2) }
    heaths := [(0, { on := true }), (1, { on := true, mirror := 0xF })]
    memory := { chans := [(0, { trained := true })] } }
def trained80 (settled : Bool) : State :=
  { booting 2 with
    heaths := if settled then (List.range 48).map (fun h => (h, { on := true, state := .up })) else []
    memory := { chans := (List.range 80).map fun c => (c, { trained := true }), ddr := { cells := [(3, 1)] } } }
def powered : State :=
  { resetState with
    tick := ranStroke.tick, prog := ranStroke.prog,
    links := [(0, { busyLink .up with queue := [] }), (1, { state := .off }), (2, { state := .down })]
    pwr := { loop := 3, fast := 8, below := 3, avsEn := true }
    heaths :=
      [(0, { on := true, state := .up, therm := 2, railVid := 15, droop := 100, droops := List.replicate 65 990 }),
       (1, { on := true, state := .lost, therm := 16 }), (3, { on := true, state := .up, droop := 65535 })] }

/-! ## Witnesses of the obligations -/

theorem witness_SequencerRegistersWritten :
    Issues sNop 0 48 ∧
    Issues sSetb 0 50 ∧
    Issues sAddb 0 51 ∧
    Issues (sMop 0 77) 0 52 ∧
    Issues (sMop 1 77) 0 52 ∧
    Issues (sMop 2 0) 0 52 ∧
    Issues (sMop 3 0) 0 52 ∧
    Issues (sMop 4 0) 0 52 ∧
    Issues (sMop 5 0) 0 52 ∧
    Issues (sMop 6 0) 0 52 ∧
    Issues sOwn 0 43 := by
  unfold Issues
  decide +kernel

theorem witness_LoopsTurnAndWaitsTakeFlags :
    let may := fun s : State =>
      (coreAt s 0).loops.length < 4 ∧
      (∀ l ∈ (coreAt s 0).loops, l.lc ≠ bits (fetched s 0).toNat 52 51) ∧
      (coreAt s 0).pc + bits (fetched s 0).toNat 34 19 + 1 < (coreAt s 0).codeEnd ∧
      ∀ l, (coreAt s 0).loops.head? = some l →
        (coreAt s 0).pc + bits (fetched s 0).toNat 34 19 + 1 ≤ l.last
    Issues sLoop 0 49 ∧ may sLoop ∧ Issues sLoopBad 0 49 ∧ ¬ may sLoopBad ∧
    (loopCores.getD 0 {}).loops = [] ∧
    (loopCores.getD 1 {}).loops = { lc := 0, first := 2, last := 5, left := 1 } :: [] ∧
    (5 ≠ (loopCores.getD 1 {}).pc) ∧
    (loopCores.getD 2 {}).loops = { lc := 0, first := 2, last := 5, left := 1 } :: [] ∧
    5 = (loopCores.getD 2 {}).pc ∧
    (loopCores.getD 3 {}).loops =
      { lc := 0, first := 2, last := 5 } :: [{ lc := 1, first := 1, last := 5, left := 2 }] ∧
    5 = (loopCores.getD 3 {}).pc ∧
    (Issues sWaitSet 0 41 ∧
      (coreAt sWaitSet 0).flagSet.getLsbD (bits (fetched sWaitSet 0).toNat 52 47) = true) ∧
    (Issues sWaitPend 0 41 ∧
      (coreAt sWaitPend 0).flagSet.getLsbD (bits (fetched sWaitPend 0).toNat 52 47) = false ∧
      (coreAt sWaitPend 0).flagPend.getLsbD (bits (fetched sWaitPend 0).toNat 52 47) = true) ∧
    Issues sWaitBad 0 41 ∧
    (coreAt sWaitBad 0).flagSet.getLsbD (bits (fetched sWaitBad 0).toNat 52 47) = false ∧
    (coreAt sWaitBad 0).flagPend.getLsbD (bits (fetched sWaitBad 0).toNat 52 47) = false := by
  have none : (coreAt sLoop 0).loops.head? = none := by decide +kernel
  have inside : ∀ l, (coreAt sLoop 0).loops.head? = some l →
      (coreAt sLoop 0).pc + bits (fetched sLoop 0).toNat 34 19 + 1 ≤ l.last := by
    intro l h
    rw [none] at h
    cases h
  unfold Issues
  refine ⟨?_, ⟨?_, ?_, ?_, inside⟩, ?_, fun h => absurd h.2.1 (by decide +kernel), ?_⟩
  all_goals decide +kernel

theorem witness_StrokeEndAndHaltHoldThenReport :
    (Issues sEnd 0 0x28 ∧ (coreAt sEnd 0).inSetup = false) ∧
    (Issues sHalt 0 0x37 ∧ (coreAt sHalt 0).inSetup = false) ∧
    (Issues sSetupEnd 0 0x28 ∧ (coreAt sSetupEnd 0).inSetup = true ∧ sSetupEnd.tick.launched = false) ∧
    (Issues sSetupHalt 0 0x37 ∧ (coreAt sSetupHalt 0).inSetup = true ∧ sSetupHalt.tick.launched = false) ∧
    (Issues (late (iw 0x28 0)) 0 0x28 ∧ (coreAt (late (iw 0x28 0)) 0).inSetup = true ∧
      (late (iw 0x28 0)).tick.launched = true) ∧
    (Issues (late (iw 0x37 0)) 0 0x37 ∧ (coreAt (late (iw 0x37 0)) 0).inSetup = true ∧
      (late (iw 0x37 0)).tick.launched = true) ∧
    mapped (sEnding true) 0 = true ∧ (coreAt (sEnding true) 0).phase = .ending ∧
    look [] (coreAt (sEnding true) 0).dma 0 = [] ∧ look [] (coreAt (sEnding true) 0).dma 1 = [] ∧
    (coreAt (sEnding true) 0).xf = [] ∧ (coreAt (sEnding true) 0).recvs = [] := by
  unfold Issues
  decide +kernel

theorem witness_TileLoadsComplete :
    let reads := fun s : State => ∀ a ∈ arraysOf (bits (fetched s 0).toNat 52 49), ∀ i < 8,
      RowReadable (coreAt s 0) (tileLoad (coreAt s 0) (fetched s 0).toNat) (8 * a + i)
    (UnitReady sLoadTile 0 ∧ Issues sLoadTile 0 0x00 ∧ reads sLoadTile) ∧
    (UnitReady sLoadTileM 0 ∧ Issues sLoadTileM 0 0x00 ∧ reads sLoadTileM) ∧
    UnitReady sVmpLoad 0 ∧ Issues sVmpLoad 0 0x08 ∧
    ∀ i < 8, RowReadable (coreAt sVmpLoad 0) (tileLoad (coreAt sVmpLoad 0) (fetched sVmpLoad 0).toNat) i := by
  unfold Issues UnitReady RowReadable Readable
  decide +kernel

/-- `SlotsReadable`, its two ranges in an order that can be decided. -/
def slots (c : Core) (o : Stream) (kseg : Nat) : Prop :=
  checkPlate c.tags ownPress o.base (imageSize o kseg) false = none ∧ ∀ n < o.n, ∀ j < kseg,
    badWords c.plate
      (slotOffset o.base (kseg * slotBytes (streamClass o) o.fmt) (slotBytes (streamClass o) o.fmt) n j)
      (slotBytes (streamClass o) o.fmt) = []

theorem witness_StreamsComplete :
    let press := fun s : State => UnitReady s 0 ∧ Issues s 0 0x01 ∧
      let o := pressStream (coreAt s 0) (fetched s 0).toNat
      streamKseg (pressTiles (coreAt s 0) o.swap) ≠ 0 ∧
        ImageReadable (coreAt s 0) o (streamKseg (pressTiles (coreAt s 0) o.swap))
    let vmp := fun s : State => UnitReady s 0 ∧ Issues s 0 0x09 ∧
      let o := vmpStream (coreAt s 0) (fetched s 0).toNat
      streamKseg (vmpTiles (coreAt s 0) o.swap) ≠ 0 ∧
        slots (coreAt s 0) o (streamKseg (vmpTiles (coreAt s 0) o.swap))
    (press (sStream 0) ∧ bit (fetched (sStream 0) 0).toNat 20 = false) ∧
    ((let s := { sStream (2 ^ 20) with cores := [(0, { coreAt (sStream (2 ^ 20)) 0 with tiles := [(7, tile1), (1, tile1)] })] }
      press s ∧ bit (fetched s 0).toNat 20 = true)) ∧
    (vmp (sVmpStream 0) ∧ bit (fetched (sVmpStream 0) 0).toNat 26 = false) ∧
    vmp (sVmpStream (2 ^ 26)) ∧ bit (fetched (sVmpStream (2 ^ 26)) 0).toNat 26 = true := by
  unfold Issues UnitReady ImageReadable Readable slots
  dsimp only
  decide +kernel

theorem witness_StreamAddsItsColumns :
    (UnitReady (sStream 0) 0 ∧ Issues (sStream 0) 0 0x01 ∧
      let o := pressStream (coreAt (sStream 0) 0) (fetched (sStream 0) 0).toNat
      ImageReadable (coreAt (sStream 0) 0) o (streamKseg (pressTiles (coreAt (sStream 0) 0) o.swap))) ∧
    UnitReady (sVmpStream 0) 0 ∧ Issues (sVmpStream 0) 0 0x09 ∧
    let o := vmpStream (coreAt (sVmpStream 0) 0) (fetched (sVmpStream 0) 0).toNat
    slots (coreAt (sVmpStream 0) 0) o (streamKseg (vmpTiles (coreAt (sVmpStream 0) 0) o.swap)) := by
  unfold Issues UnitReady ImageReadable Readable slots
  dsimp only
  decide +kernel

theorem witness_DrainsAndClears :
    let drains := fun (s : State) (op : Nat) => UnitReady s 0 ∧ Issues s 0 op
    let bytes := fun (s : State) (acc : FMap Word) (cols : Nat) (as : List Nat) =>
      (word32Bytes (drainWords acc cols (drainC0 (fetched s 0).toNat) (drainN (fetched s 0).toNat) as)).length
    (let s := sDrain 0x02 (3 * 2 ^ 49 + 2 ^ 22 + 2 ^ 23)
     drains s 0x02 ∧ arraysOf (bits (fetched s 0).toNat 52 49) = [0, 1] ∧
      Writable (coreAt s 0) ownPress (drainDest (coreAt s 0) (fetched s 0).toNat)
        (bytes s (coreAt s 0).acc accCols [0, 1])) ∧
    (let s := sDrain 0x02 0
     drains s 0x02 ∧ arraysOf (bits (fetched s 0).toNat 52 49) = []) ∧
    (let s := sDrain 0x0A (2 ^ 22)
     drains s 0x0A ∧ Writable (coreAt s 0) ownPress (drainDest (coreAt s 0) (fetched s 0).toNat)
        (bytes s (coreAt s 0).vacc vaccCols [0])) ∧
    drains (sDrain 0x03 (3 * 2 ^ 49)) 0x03 ∧ drains (sDrain 0x0B 0) 0x0B := by
  unfold Issues UnitReady Writable
  decide +kernel

theorem witness_LaneInstructionsWriteTheirLanes :
    UnitReady (sValu 0 0) 0 ∧
    Issues (sValu 0 0) 0 18 ∧
    UnitReady (sVfn 0) 0 ∧
    Issues (sVfn 0) 0 19 ∧
    UnitReady (sVlane 0) 0 ∧
    Issues (sVlane 0) 0 22 := by
  unfold Issues UnitReady
  decide +kernel

theorem witness_ReductionsAndComparisons :
    UnitReady (sVred 0 0) 0 ∧
    Issues (sVred 0 0) 0 20 ∧
    UnitReady (sVmask 0) 0 ∧
    Issues (sVmask 0) 0 21 := by
  unfold Issues UnitReady
  decide +kernel

theorem witness_VectorLoadsComplete :
    let lands := fun s : State => UnitReady s 0 ∧ vecAddr (coreAt s 0) (fetched s 0).toNat % 8 = 0
    let reads := fun (s : State) (n : Nat) => Readable (coreAt s 0) ownVec (vecAddr (coreAt s 0) (fetched s 0).toNat) n
    (lands (sVld 0) ∧ bits (fetched (sVld 0) 0).toNat 23 19 = 0 ∧ fmtMx 0 = false ∧ Issues (sVld 0) 0 0x10 ∧
      reads (sVld 0) (8 * elemWidth (fmtElem 0))) ∧
    (lands (sVld 19) ∧ bits (fetched (sVld 19) 0).toNat 23 19 = 19 ∧ fmtMx 19 = true ∧ Issues (sVld 19) 0 0x10 ∧
      reads (sVld 19) (8 * elemWidth (fmtElem 19)) ∧
      Readable (coreAt (sVld 19) 0) ownVec (vecScaleAddr (coreAt (sVld 19) 0) (fetched (sVld 19) 0).toNat) 2) ∧
    (lands (sSys 0 0) ∧ IssuesSys (sSys 0 0) 0 0 ∧ reads (sSys 0 0) 8) ∧
    (lands (sSys 1 0) ∧ IssuesSys (sSys 1 0) 0 1 ∧ reads (sSys 1 0) 16) ∧
    laneOn (coreAt (sSys 0 0) 0) (fetched (sSys 0 0) 0).toNat 0 = true ∧
    ∀ fn < 2, lands (sSys fn 1) ∧ IssuesSys (sSys fn 1) 0 fn ∧
      laneOn (coreAt (sSys fn 1) 0) (fetched (sSys fn 1) 0).toNat 0 = false ∧
      checkPlate (coreAt (sSys fn 1) 0).tags ownVec (vecAddr (coreAt (sSys fn 1) 0) (fetched (sSys fn 1) 0).toNat)
        (8 * (fn + 1)) false = none := by
  unfold IssuesSys Issues UnitReady Readable
  dsimp only
  and_intros <;> decide +kernel

theorem witness_VectorStoresComplete :
    let lands := fun (s : State) (n : Nat) => UnitReady s 0 ∧ vecAddr (coreAt s 0) (fetched s 0).toNat % 8 = 0 ∧
      checkPlate (coreAt s 0).tags ownVec (vecAddr (coreAt s 0) (fetched s 0).toNat) n true = none
    (lands (sVst 0 0) 256 ∧ Issues (sVst 0 0) 0 0x11 ∧ bits (fetched (sVst 0 0) 0).toNat 23 19 = 0 ∧
      fmtMx 0 = false ∧ 8 * elemWidth (fmtElem 0) = 256 ∧
      ∀ i < 32, badWords (coreAt (sVst 0 0) 0).plate
        (vecAddr (coreAt (sVst 0 0) 0) (fetched (sVst 0 0) 0).toNat + 8 * i) 8 = []) ∧
    (lands (sVst 19 0) (8 * elemWidth (fmtElem 19)) ∧ Issues (sVst 19 0) 0 0x11 ∧
      bits (fetched (sVst 19 0) 0).toNat 23 19 = 19 ∧ fmtMx 19 = true ∧
      Writable (coreAt (sVst 19 0) 0) ownVec (vecScaleAddr (coreAt (sVst 19 0) 0) (fetched (sVst 19 0) 0).toNat) 2) ∧
    (lands (sSys 3 0) 8 ∧ IssuesSys (sSys 3 0) 0 3 ∧ laneOn (coreAt (sSys 3 0) 0) (fetched (sSys 3 0) 0).toNat 0 = true) ∧
    (lands (sSys 2 0) 8 ∧ IssuesSys (sSys 2 0) 0 2 ∧ laneOn (coreAt (sSys 2 0) 0) (fetched (sSys 2 0) 0).toNat 0 = true) ∧
    ∀ fn < 2, lands (sSys (2 + fn) 1) 8 ∧ IssuesSys (sSys (2 + fn) 1) 0 (2 + fn) ∧
      laneOn (coreAt (sSys (2 + fn) 1) 0) (fetched (sSys (2 + fn) 1) 0).toNat 0 = false := by
  unfold IssuesSys Issues UnitReady Writable
  dsimp only
  and_intros <;> decide +kernel

theorem witness_DmaInstructionsIssue :
    let stalls := sDma 0x18 1 false (rowDesc 1) { dma := [(1, [{ moved := true }, { stall := some 0 }])] }
    (DmaReady sRow 0 ∧ Issues sRow 0 0x18) ∧
    (DmaReady (dmaOthers.getD 0 sRow) 0 ∧ Issues (dmaOthers.getD 0 sRow) 0 0x19) ∧
    (DmaReady (dmaOthers.getD 1 sRow) 0 ∧ Issues (dmaOthers.getD 1 sRow) 0 0x1A) ∧
    (DmaReady (dmaOthers.getD 2 sRow) 0 ∧ Issues (dmaOthers.getD 2 sRow) 0 0x1B) ∧
    (DmaReady (dmaOthers.getD 3 sRow) 0 ∧ Issues (dmaOthers.getD 3 sRow) 0 0x1C) ∧
    DmaReady stalls 0 ∧ Issues stalls 0 0x18 ∧
    look [] (coreAt stalls 0).dma (dmaEngine stalls 0) = [{ moved := true }] ++ { stall := some 0 } :: [] := by
  unfold Issues DmaReady
  dsimp only
  and_intros <;> decide +kernel

theorem witness_DmaRowCopiesItsRow :
    let row := fun (s : State) => Issues s 0 0x18 ∧ DmaReady s 0 ∧ look [] (coreAt s 0).dma (dmaEngine s 0) = [] ∧
      descOk (dmaOp s 0) = true ∧ bits (dmaWord (dmaOp s 0) 3) 47 32 = 0 ∧ bits (dmaWord (dmaOp s 0) 3) 23 0 = 32 ∧
      dSrc (dmaOp s 0) % 8 = 0 ∧ dSstride (dmaOp s 0) % 8 = 0 ∧ dDst (dmaOp s 0) % 8 = 0 ∧
      dDstride (dmaOp s 0) % 8 = 0 ∧ dGate (dmaOp s 0) = true
    let gets := sDma 0x18 0 false [desc0 1 2, 128, 64, 32, 0, 0, 0, 0] (owned 3)
    let puts := sDma 0x18 0 false [desc0 1 1, 0, 128, 32, 0, 0, 0, 0] (owned 3)
    let gets := { gets with memory := memState.memory }
    let puts := { puts with memory := memState.memory }
    (row sRow ∧ dSsp (dmaOp sRow 0) = true ∧ dDsp (dmaOp sRow 0) = true ∧
      Readable (coreAt sRow 0) (dOwner (dmaOp sRow 0)) (dSrc (dmaOp sRow 0)) 32 ∧
      checkPlate (coreAt sRow 0).tags (dOwner (dmaOp sRow 0)) (dDst (dmaOp sRow 0)) 32 true = none) ∧
    (row gets ∧ dSsp (dmaOp gets 0) = false ∧ dDsp (dmaOp gets 0) = true ∧
      dSrc (dmaOp gets 0) + 32 ≤ shareLo ∧ checkDev gets.memory (dSrc (dmaOp gets 0)) 32 false = none ∧
      badWords gets.memory.ddr (dSrc (dmaOp gets 0)) 32 = [] ∧
      correctedWords gets.memory.ddr (dSrc (dmaOp gets 0)) 32 = [] ∧
      checkPlate (coreAt gets 0).tags (dOwner (dmaOp gets 0)) (dDst (dmaOp gets 0)) 32 true = none) ∧
    row puts ∧ dSsp (dmaOp puts 0) = true ∧ dDsp (dmaOp puts 0) = false ∧
    Readable (coreAt puts 0) (dOwner (dmaOp puts 0)) (dSrc (dmaOp puts 0)) 32 ∧
    dDst (dmaOp puts 0) + 32 ≤ shareLo ∧ checkDev puts.memory (dDst (dmaOp puts 0)) 32 true = none ∧
    ∀ w ∈ partWords (dDst (dmaOp puts 0)) 32, badWords puts.memory.ddr (8 * w) 8 = [] := by
  unfold Issues DmaReady Readable
  dsimp only
  and_intros <;> decide +kernel

theorem witness_DmaTransposesAndBuildsImages :
    let cols := fun sides : Nat => { sDma 0x19 1 false
      [desc0 2 sides + 1 * 2 ^ 19, 128, 256, 3 + 3 * 2 ^ 16, 8, 8, 0, 0] (owned 4) with memory := memState.memory }
    let image := fun sides kmajor : Nat => { sDma 0x1A 1 false
      [desc0 3 sides + 1 * 2 ^ 19, 128, 2048, 1 + kmajor * 2 ^ 14, 32, 0, 0, 0] (owned 4) with memory := memState.memory }
    let mx := sDma 0x1A 1 false [desc0 3 3 + 19 * 2 ^ 19, 0, 64, 1, 32, 1024, 32, 0] (owned 4)
    let from_ := fun (s : State) (sp : Bool) (src ss : Nat) => DescReady s 0 ∧ dSsp (dmaOp s 0) = sp ∧
      dSrc (dmaOp s 0) = src ∧ dSstride (dmaOp s 0) = ss ∧ sideAligned sp src ss = true
    let transposes := fun (s : State) (sp dp : Bool) => from_ s sp 128 8 ∧ Issues s 0 0x19 ∧
      colWidth (dFmt (dmaOp s 0)) = some 2 ∧ dDsp (dmaOp s 0) = dp ∧ dDst (dmaOp s 0) = 256 ∧
      dDstride (dmaOp s 0) = 8 ∧ sideAligned dp 256 8 = true ∧ bits (dmaWord (dmaOp s 0) 3) 15 0 + 1 = 4 ∧
      bits (dmaWord (dmaOp s 0) 3) 31 16 + 1 = 4 ∧ 4 * 2 ≤ 8 ∧
      (∀ i < 4, SideReads s 0 sp (128 + i * 8) 8) ∧ ∀ j < 4, SideWrites s 0 dp (256 + j * 8) 8
    let imaged := fun (s : State) (sp km : Bool) => from_ s sp 128 32 ∧ Issues s 0 0x1A ∧
      dFmt (dmaOp s 0) = 1 ∧ fmtOk 1 = true ∧ classOf 1 = some .bf16 ∧ fmtMx 1 = false ∧ dDsp (dmaOp s 0) = true ∧
      dDst (dmaOp s 0) = 2048 ∧ bits (dmaWord (dmaOp s 0) 3) 10 0 + 1 = 2 ∧
      bits (dmaWord (dmaOp s 0) 3) 13 11 + 1 = 1 ∧ bit (dmaWord (dmaOp s 0) 3) 14 = km ∧ 1 ∈ [1, 2, 3, 4, 8] ∧
      (∀ i < (if km then 1 * classSeg .bf16 else 2), SideReads s 0 sp (128 + i * 32) (if km then 4 else 32)) ∧
      segBytes .bf16 1 = 32 ∧ 2 * (elemWidth (fmtElem 1) / 8) = 4 ∧
      SideWrites s 0 true 2048 (2 * slotBytes .bf16 1)
    transposes (cols 3) true true ∧ transposes (cols 2) false true ∧ transposes (cols 1) true false ∧
    imaged (image 3 0) true false ∧ imaged (image 2 0) false false ∧ imaged (image 3 1) true true ∧
    from_ mx true 0 32 ∧ Issues mx 0 0x1A ∧
    dFmt (dmaOp mx 0) = 19 ∧ fmtMx 19 = true ∧ fmtOk 19 = true ∧ classOf 19 = some .fp8 ∧
    dDsp (dmaOp mx 0) = true ∧ dDst (dmaOp mx 0) = 64 ∧ bit (dmaWord (dmaOp mx 0) 3) 14 = false ∧
    (∀ i < 2, SideReads mx 0 true (i * 32) (segBytes .fp8 19)) ∧
    (∀ i < 2, SideReads mx 0 true
      (srcAddr (dmaOp mx 0) (bits (dmaWord (dmaOp mx 0) 5) 47 0) + i * bits (dmaWord (dmaOp mx 0) 6) 47 0)
      (classGroups .fp8)) ∧
    SideWrites mx 0 true 64 (2 * slotBytes .fp8 19) := by
  unfold Issues DescReady DmaReady SideReads SideWrites SideCheck SideSound
  dsimp only
  and_intros <;> decide +kernel

theorem witness_DmaPacksAndGathers :
    let pack := fun sides un : Nat => { sDma 0x1B 1 false
      [desc0 4 sides + 19 * 2 ^ 19, 256, 1024, un * 2 ^ 32, 0, 0, 1536, 0] (owned 4) with memory := memState.memory }
    let plate := { owned 4 with plate := { cells := bytes64 ++ [(96, 255), (97, 255), (98, 255), (99, 255)] } }
    let gather := fun sides table : Nat => { sDma 0x1C 1 false
      [desc0 5 sides, 256, 512, 32 * 2 ^ 16, table, 32, 0, 0] plate with memory := memState.memory }
    let packs := fun (s : State) (sp dp un : Bool) => DescReady s 0 ∧ Issues s 0 0x1B ∧ dFmt (dmaOp s 0) = 19 ∧
      fmtMx 19 = true ∧ fmtOk 19 = true ∧ elemWidth (fmtElem 19) = 8 ∧ dCvt (dmaOp s 0) % 4 ≠ 3 ∧
      bits (dmaWord (dmaOp s 0) 3) 15 0 = 0 ∧ bits (dmaWord (dmaOp s 0) 3) 31 16 = 0 ∧
      bit (dmaWord (dmaOp s 0) 3) 32 = un ∧ dSsp (dmaOp s 0) = sp ∧ dDsp (dmaOp s 0) = dp ∧
      sideAligned sp (dSrc (dmaOp s 0)) (dSstride (dmaOp s 0)) = true ∧
      sideAligned dp (dDst (dmaOp s 0)) (dDstride (dmaOp s 0)) = true ∧ dSrc (dmaOp s 0) = 256 ∧
      dDst (dmaOp s 0) = 1024
    let down := fun (s : State) (sp dp : Bool) => packs s sp dp false ∧
      dstAddr (dmaOp s 0) (bits (dmaWord (dmaOp s 0) 6) 47 0) = 1536 ∧
      SideReads s 0 sp 256 128 ∧ SideWrites s 0 dp 1024 32 ∧ SideWrites s 0 dp 1536 1 ∧ 1024 + 32 ≤ 1536
    let up := fun (s : State) (sp dp : Bool) => packs s sp dp true ∧
      srcAddr (dmaOp s 0) (bits (dmaWord (dmaOp s 0) 6) 47 0) = 1536 ∧
      SideReads s 0 sp 256 32 ∧ SideReads s 0 sp 1536 1 ∧ SideWrites s 0 dp 1024 128
    let entry := fun (s : State) (sp dp : Bool) (table x : Nat) => DescReady s 0 ∧ Issues s 0 0x1C ∧
      dSsp (dmaOp s 0) = sp ∧ dDsp (dmaOp s 0) = dp ∧ bits (dmaWord (dmaOp s 0) 3) 15 0 = 0 ∧
      bits (dmaWord (dmaOp s 0) 3) 39 16 = 32 ∧ bits (dmaWord (dmaOp s 0) 4) 24 0 = table ∧
      bits (dmaWord (dmaOp s 0) 5) 47 0 = 32 ∧ bits (dmaWord (dmaOp s 0) 6) 47 0 = 0 ∧ table % 4 = 0 ∧
      SideReads s 0 true table 4 ∧ memNat (coreAt s 0).plate table 4 = x ∧ dSrc (dmaOp s 0) = 256 ∧
      dDst (dmaOp s 0) = 512 ∧ (dmaOp s 0).pred.getLsbD 0 = true
    let gathers := fun (s : State) (sp dp : Bool) (table x : Nat) => entry s sp dp table x ∧
      sideAligned sp 256 32 = true ∧ sideAligned dp 512 0 = true ∧ SideWrites s 0 dp 512 32 ∧
      (x ≠ 0xFFFFFFFF → SideCheck s 0 sp (256 + x * 32) 32 false ∧ SideSound s 0 sp (256 + x * 32) 32)
    let scatters := fun (s : State) (table x : Nat) => entry s true false table x ∧ sideAligned true 256 0 = true ∧
      (x ≠ 0xFFFFFFFF → SideCheck s 0 true 256 32 false ∧ SideSound s 0 true 256 32 ∧
        SideWrites s 0 false (512 + x * 32) 32)
    down (pack 3 0) true true ∧ down (pack 2 0) false true ∧ down (pack 1 0) true false ∧
    up (pack 3 1) true true ∧ up (pack 2 1) false true ∧ up (pack 1 1) true false ∧
    gathers (gather 3 64) true true 64 0 ∧ gathers (gather 3 96) true true 96 0xFFFFFFFF ∧
    gathers (gather 2 64) false true 64 0 ∧ gathers (gather 2 96) false true 96 0xFFFFFFFF ∧
    scatters (gather 1 64) 64 0 ∧ scatters (gather 1 96) 96 0xFFFFFFFF := by
  unfold Issues DescReady DmaReady SideReads SideWrites SideCheck SideSound
  dsimp only
  and_intros <;> decide +kernel

theorem witness_TransfersIssue :
    (coreAt sSend 0).xf = [] ∧
    BitVec.toNat (baseOf (coreAt sSend 0) (xBase ((fetched sSend 0).toNat))) % 64 = 0 ∧
    Issues sSend 0 32 ∧
    (xFv ((fetched sSend 0).toNat) = false ∨
      (coreAt sSend 0).flagSet.getLsbD (xFlag ((fetched sSend 0).toNat)) = true) ∧
    bit ((fetched sSend 0).toNat) 32 = false ∧
    (coreOfXY sSend (bits ((fetched sSend 0).toNat) 31 26) (bits ((fetched sSend 0).toNat) 25 20)).isSome =
      true ∧
    checkPlate (coreAt sSend 0).tags ownMesh (BitVec.toNat (baseOf (coreAt sSend 0) (xBase ((fetched sSend
        0).toNat)))) (64 * xLen ((fetched sSend 0).toNat)) false = none ∧
      badWords (coreAt sSend 0).plate (BitVec.toNat (baseOf (coreAt sSend 0) (xBase ((fetched sSend 0).toNat))))
        (64 * xLen ((fetched sSend 0).toNat)) = [] ∧
    (coreAt sMcast 0).xf = [] ∧
    BitVec.toNat (baseOf (coreAt sMcast 0) (xBase ((fetched sMcast 0).toNat))) % 64 = 0 ∧
    Issues sMcast 0 34 ∧
    (xFv ((fetched sMcast 0).toNat) = false ∨
      (coreAt sMcast 0).flagSet.getLsbD (xFlag ((fetched sMcast 0).toNat)) = true) ∧
    sMcast.prog.groups[bits ((fetched sMcast 0).toNat) 31 20]? = some 0xE ∧
    (BitVec.ofNat 1280 0xE).getLsbD 0 = false ∧
    checkPlate (coreAt sMcast 0).tags ownMesh (BitVec.toNat (baseOf (coreAt sMcast 0) (xBase ((fetched sMcast
        0).toNat)))) (64 * xLen ((fetched sMcast 0).toNat)) false = none ∧
      badWords (coreAt sMcast 0).plate (BitVec.toNat (baseOf (coreAt sMcast 0) (xBase ((fetched sMcast
        0).toNat)))) (64 * xLen ((fetched sMcast 0).toNat)) = [] ∧
    (coreAt sSendWait 0).xf = [] ∧
    BitVec.toNat (baseOf (coreAt sSendWait 0) (xBase ((fetched sSendWait 0).toNat))) % 64 = 0 ∧
    (Issues sSendWait 0 32 ∨ Issues sSendWait 0 34) ∧
    (¬(xFv ((fetched sSendWait 0).toNat) = false ∨
      (coreAt sSendWait 0).flagSet.getLsbD (xFlag ((fetched sSendWait 0).toNat)) = true)) ∧
    (targetOf sSendWait 0 ((fetched sSendWait 0).toNat)).isSome = true ∧
    (coreAt sRecv 0).xf = [] ∧
    BitVec.toNat (baseOf (coreAt sRecv 0) (xBase ((fetched sRecv 0).toNat))) % 64 = 0 ∧
    Issues sRecv 0 33 ∧
    (xFv ((fetched sRecv 0).toNat) = true → (coreAt sRecv 0).flagSet.getLsbD (xFlag ((fetched sRecv 0).toNat)) =
      false ∧ (coreAt sRecv 0).flagPend.getLsbD (xFlag ((fetched sRecv 0).toNat)) = false) ∧
    checkPlate (coreAt sRecv 0).tags ownMesh (BitVec.toNat (baseOf (coreAt sRecv 0) (xBase ((fetched sRecv
        0).toNat)))) (64 * xLen ((fetched sRecv 0).toNat)) true = none ∧
    mismatchIn (recvsOn { coreAt sRecv 0 with recvs := (coreAt sRecv 0).recvs ++
      [{ pc := (coreAt sRecv 0).pc, word := fetched sRecv 0, slot := 7, addr := 0, len := 1, flag := 3,
         fv := true }] } 7)
      (heldOn (coreAt sRecv 0) 7) = none := by
  unfold Issues
  decide +kernel

theorem witness_RemoteSendsIssue :
    let sends := fun s : State =>
      Issues s 0 32 ∧ (coreAt s 0).xf = [] ∧
      (baseOf (coreAt s 0) (xBase (fetched s 0).toNat)).toNat % 64 = 0 ∧
      (xFv (fetched s 0).toNat = false ∨
        (coreAt s 0).flagSet.getLsbD (xFlag (fetched s 0).toNat) = true) ∧
      checkPlate (coreAt s 0).tags ownMesh (baseOf (coreAt s 0) (xBase (fetched s 0).toNat)).toNat
        (64 * xLen (fetched s 0).toNat) false = none ∧
      badWords (coreAt s 0).plate (baseOf (coreAt s 0) (xBase (fetched s 0).toNat)).toNat
        (64 * xLen (fetched s 0).toNat) = []
    let far := fun vc : Nat => ({ device := 4, vx := 1, vy := 0, vc := vc } : Route)
    let near : Route := { device := 3, vx := 0x3F, vy := 0, vc := 1 }
    sends (sSendFar 2) ∧ targetOf (sSendFar 2) 0 (fetched (sSendFar 2) 0).toNat = some (.remote (far 2)) ∧
    sends (sSendFar 1) ∧ targetOf (sSendFar 1) 0 (fetched (sSendFar 1) 0).toNat = some (.remote (far 1)) ∧
    look 0 (sSendFar 1).prog.window 4 + 64 * xLen (fetched (sSendFar 1) 0).toNat ≤ schedWindow ∧
    sends sSendColl ∧ targetOf sSendColl 0 (fetched sSendColl 0).toNat = some (.engine near) ∧
    collOf sSendColl (xSlot (fetched sSendColl 0).toNat) = some coll0 ∧
    contribBytes coll0 = 64 * xLen (fetched sSendColl 0).toNat ∧
    near.device = sSendColl.fab.id ∧ collReceives sSendColl coll0 = true ∧
    sends sSendEngine ∧ targetOf sSendEngine 0 (fetched sSendEngine 0).toNat = some (.engine { near with device := 4 }) ∧
    4 ≠ sSendEngine.fab.id ∧ collOf sSendEngine (xSlot (fetched sSendEngine 0).toNat) = some coll0 ∧
    (∀ e, collOf sSendEngine (xSlot (fetched sSendEngine 0).toNat) = some e →
      contribBytes e = 64 * xLen (fetched sSendEngine 0).toNat) ∧
    look 0 sSendEngine.prog.window 4 + 64 * xLen (fetched sSendEngine 0).toNat ≤ schedWindow ∧
    (sSendFar 2).fab.waiting = [] ∧
    look 0 (sSendFar 2).fab.used (windowKey 4 2) + 64 * xLen (fetched (sSendFar 2) 0).toNat ≤
      unschedWindow (sSendFar 2) ∧
    let full := { sSendFar 2 with fab := { (sSendFar 2).fab with waiting := [{ dst := 4, vc := 2 }] } }
    sends full ∧ targetOf full 0 (fetched full 0).toNat = some (.remote (far 2)) ∧
    (full.fab.waiting.any fun q => windowKey q.dst q.vc == windowKey 4 2) = true := by
  have one : collOf sSendEngine (xSlot (fetched sSendEngine 0).toNat) = some coll0 := by decide +kernel
  have size : contribBytes coll0 = 64 * xLen (fetched sSendEngine 0).toNat := by decide +kernel
  have each : ∀ e, collOf sSendEngine (xSlot (fetched sSendEngine 0).toNat) = some e →
      contribBytes e = 64 * xLen (fetched sSendEngine 0).toNat := by
    intro e h
    rw [one] at h
    cases h
    exact size
  unfold Issues
  dsimp only
  and_intros <;> first | exact each | decide +kernel

theorem witness_DeliveriesAndCompletions :
    let s := sArrive []
    let d := dlv (.core 1) (List.replicate 64 2)
    mapped s 0 = true ∧
    takeFirst (fun d => d.dst == 0 && d.slot == 7 && d.src == (.core 1)) s.transit = some
      (d, [dlv (.core 2) (List.replicate 64 1), dlv (.core 1) (List.replicate 64 3)]) ∧
    (heathAt s (heathOf s 0)).frozen = false ∧ look none (coreAt s 0).binds 7 = none ∧
    (recvsOn (coreAt s 0) 7)[(heldOn (coreAt s 0) 7).length]? = some { slot := 7, len := 1 } ∧
    1 = d.len ∧
    let c := sComplete (.core 1) true
    let r : RecvOp := { slot := 7, addr := 128, len := 1, flag := 3, fv := true }
    let e := dlv (.core 1) (List.replicate 64 9)
    mapped c 0 = true ∧ readyRecv (coreAt c 0) 7 = some (r, e) ∧ (coreAt c 0).xf = [] ∧
    (heathAt c (heathOf c 0)).frozen = false ∧ r.addr % 8 = 0 ∧ e.data.length % 8 = 0 ∧ e.data ≠ [] ∧
    let m := sMoved true
    mapped m 0 = true ∧
    look [] (coreAt m 0).dma 1 = { moved := true, flag := 6, fv := true } :: [{}] ∧
    (coreAt m 0).xf = [] := by decide +kernel

theorem witness_LaunchesBeginStrokes :
    let goesOn := fun (s : State) => s.fab.waiting = [] ∧ s.prog.phase = .running ∧ s.tick.fixed = some 2 ∧
      s.tick.ended = true ∧ s.tick.alone = true
    let due := fun (s : State) => s.fab.waiting = [] ∧ s.prog.phase = .due ∧ s.prog.record.isSome = true ∧
      (s.tick.alone = true ∨
        syncOk s (s.prog.record.getD {}).l1 (s.prog.record.getD {}).syncLimit = true)
    (goesOn ranStroke ∧ nextStroke ranStroke = some (1, 0, false) ∧ (coreAt ranStroke 0).phase = .ended ∧
      (coreAt ranStroke 1).phase = .halted) ∧
    (goesOn ranStep ∧ nextStroke ranStep = some (1, 0, true) ∧ allHalted ranStep = true ∧
      (coreAt ranStep 0).phase = .halted ∧ (ranStep.prog.table.shapes[ranStep.srv.books.variant]?).isSome = true) ∧
    due (dueState false .unassigned) ∧ due (dueState true .assigned) := by decide +kernel

theorem witness_HoldsAndDecisions :
    sHoldEnded.tick.launched = true ∧
    sHoldEnded.tick.fixed = none ∧
    sHoldEnded.tick.ended = true ∧
    (inStroke true).tick.launched = true ∧
    (inStroke true).tick.fixed = none ∧
    (inStroke true).tick.ended = false ∧
    (inStroke true).tick.round + 1 ≠ 256 ∧
    (inStroke false).tick.launched = true ∧
    (inStroke false).tick.fixed = none ∧
    (inStroke false).tick.ended = false ∧
    (inStroke false).tick.round + 1 ≠ 256 ∧
    sHoldLast.tick.launched = true ∧
    sHoldLast.tick.fixed = none ∧
    sHoldLast.tick.ended = false ∧
    sHoldLast.tick.round + 1 = 256 ∧
    progLive sHoldLast = true ∧
    ((inStroke true).tick.commits.all fun p => p.2 != 0) = false ∧
    (inStroke true).tick.check + 1 ≤ (inStroke true).tick.round ∧
    (sDecide 0).tick.launched = true ∧
    (sDecide 0).tick.fixed = none ∧
    ((sDecide 0).tick.commits.all fun p => p.2 != 0) = false ∧
    (sDecide 0).tick.round < (sDecide 0).tick.check + 1 := by decide +kernel

theorem witness_PriorityFlitsTaken :
    linkUp ranStroke 0 = true ∧
    ({ prio0 with pkey := 8 }.pkey ≠ ranStroke.fab.pkey ∨ { prio0 with pkey := 8 }.pkey = 0) ∧
    prioOk ranStroke 0 prio0 = true ∧
    epochOk ranStroke prio0 = false ∧
    prioOk { member true with fab := { (member true).fab with stopSeen := [(3, 3)] } } 0 prio0 = true ∧
    epochOk { member true with fab := { (member true).fab with stopSeen := [(3, 3)] } } prio0 = true ∧
    progLive { member true with fab := { (member true).fab with stopSeen := [(3, 3)] } } = true ∧
    prioSeen { member true with fab := { (member true).fab with stopSeen := [(3, 3)] } } prio0.stroke
        prio0.round = true ∧
    prioOk (inStroke false) 0 prio0 = true ∧
    epochOk (inStroke false) prio0 = true ∧
    progLive (inStroke false) = true ∧
    prioSeen (inStroke false) prio0.stroke prio0.round = false ∧
    (inStroke false).tick.launched = true ∧
    prio0.stroke = (inStroke false).tick.stroke ∧
    (inStroke false).tick.rounds.find? (fun x => x.1 == prio0.stroke) = none ∧
    (let s := { inStroke false with tick := { (inStroke false).tick with fixed := some 2, rounds := [(3, 2)] } }
     prioOk s 0 prio0 = true ∧ epochOk s prio0 = true ∧ progLive s = true ∧
      prioSeen s prio0.stroke prio0.round = false ∧ s.tick.launched = true ∧
      s.tick.rounds.find? (fun x => x.1 == prio0.stroke) = some (3, 2) ∧ (2 : Nat) < prio0.round) ∧
    (let s := { inStroke false with tick := { (inStroke false).tick with fixed := some 3, rounds := [(3, 3)] } }
     prioOk s 0 prio0 = true ∧ epochOk s prio0 = true ∧ progLive s = true ∧
      prioSeen s prio0.stroke prio0.round = false ∧ s.tick.launched = true ∧ prio0.stroke = s.tick.stroke ∧
      s.tick.rounds.find? (fun x => x.1 == prio0.stroke) = some (3, 3) ∧ prio0.round ≤ 3) ∧
    prioOk (dueState true .assigned) 0 prio0 = true ∧
    epochOk (dueState true .assigned) prio0 = true ∧
    progLive (dueState true .assigned) = true ∧
    prioSeen (dueState true .assigned) prio0.stroke (seenStop prio0.origin) = false ∧
    prioOk { member true with tick := { (member true).tick with stop := { valid := true, code := 9 }} } 0 prio0
        = true ∧
    epochOk { member true with tick := { (member true).tick with stop := { valid := true, code := 9 }} } prio0 =
      true ∧
    progLive { member true with tick := { (member true).tick with stop := { valid := true, code := 9 }} } =
      true ∧
    prioSeen { member true with tick := { (member true).tick with stop := { valid := true, code := 9 }} }
        prio0.stroke (seenStop prio0.origin) = false ∧
    (dueState true .assigned).tick.stop.valid = false ∧ ownStopDue (dueState true .assigned) = none ∧
    (let s := { inStroke false with tick :=
        { (inStroke false).tick with fixed := some 2, stopDue := true, gtc := decisionAt (inStroke false) 2 } }
     prioOk s 0 prio0 = true ∧ epochOk s prio0 = true ∧ progLive s = true ∧
      prioSeen s prio0.stroke (seenStop prio0.origin) = false ∧ s.tick.stop.valid = false ∧
      (ownStopDue s).isSome = true) ∧
    prioSeen (dueState true .assigned) 0 (seenCancel prio0.epoch) = false ∧
    (dueState true .assigned).prog.phase = ProgPhase.due := by decide +kernel

theorem witness_BeaconsKeepTime :
    (member true).tick.running = true ∧
    prioOk (member true) 0 prio0 = true ∧
    ((member true).tick.master = true ∨ (member true).tick.uplink ≠ 0) ∧
    (synced .acquiring false false 2).tick.running = true ∧
    prioOk (synced .acquiring false false 2) 2 prio0 = true ∧
    (synced .acquiring false false 2).tick.master = false ∧
    (synced .acquiring false false 2).tick.uplink = 2 ∧
    (synced .acquiring false false 2).tick.sync = SyncState.acquiring ∧
    (synced .acquiring false false 2).tick.stepped = false ∧
    progLive (synced .acquiring false false 2) = false ∧
    (synced .acquiring true false 3).tick.running = true ∧
    prioOk (synced .acquiring true false 3) 2 prio0 = true ∧
    (synced .acquiring true false 3).tick.master = false ∧
    (synced .acquiring true false 3).tick.uplink = 2 ∧
    ((synced .acquiring true false 3).tick.sync = SyncState.acquiring ∧
      ((synced .acquiring true false 3).tick.stepped = true ∨ progLive (synced .acquiring true false 3) =
      true) ∨ (synced .acquiring true false 3).tick.sync = SyncState.locked) ∧
    prioOk (synced .acquiring true false 3) 2 { prio0 with gtc := 10000 } = true ∧
    (synced .holdover true true 1).tick.running = true ∧
    prioOk (synced .holdover true true 1) 2 { prio0 with gtc := 11000 } = true ∧
    (synced .holdover true true 1).tick.master = false ∧
    (synced .holdover true true 1).tick.uplink = 2 ∧
    (synced .holdover true true 1).tick.sync = SyncState.holdover ∧
    progLive (synced .holdover true true 1) = true ∧
    16 * ((lockedBound (synced .holdover true true 1) + ((synced .holdover true true 1).tick.gtc - (synced
        .holdover true true 1).tick.lastBeacon) / 2 ^ 24 : Nat) : Int) < beaconError (synced .holdover true true
        1) 2 { prio0 with gtc := 11000 } ∧
    (let s := synced .holdover true false 1
     let b : Int := 16 * ((lockedBound s + (s.tick.gtc - s.tick.lastBeacon) / 2 ^ 24 : Nat) : Int)
     s.tick.running = true ∧ prioOk s 2 prio0 = true ∧ s.tick.master = false ∧ s.tick.uplink = 2 ∧
      s.tick.sync = .holdover ∧ progLive s = false ∧ stoppedNow s = false ∧
      prioOk s 2 { prio0 with gtc := 10000 } = true ∧ -b ≤ beaconError s 2 { prio0 with gtc := 10000 } ∧
      beaconError s 2 { prio0 with gtc := 10000 } ≤ b ∧ prioOk s 2 { prio0 with gtc := 9000 } = true ∧
      beaconError s 2 { prio0 with gtc := 9000 } < -b) ∧
    masterState.tick.running = true ∧
    masterRef masterState = true ∧
    (synced .locked true true 3).tick.running = true ∧ (synced .locked true true 3).tick.sync = .locked ∧
    (synced .acquiring false false 2).tick.uplink ≠ 127 ∧
    (synced .acquiring false false 2).tick.sync ≠ SyncState.unsync := by decide +kernel

/-- A member of rank 0 whose input holds an uncorrectable word. -/
def badInput : State :=
  let s := loadedMember 2
  { s with
    memory := { zeroed := true, ddr := { flips := [(8, 3)] }, regions := [(0, { valid := true, kind := 0 })] }
    fab := { s.fab with rank := 0 }
    prog := { s.prog with args := { s.prog.args with inAddr := 64, inBytes := 8 } } }

theorem witness_LaunchAgreed :
    loadedAlone.prog.phase = ProgPhase.loaded ∧
    loadedAlone.fab.part = PartState.unassigned ∧ loadedAlone.prog.devices = 1 ∧
    inputRefusal (advance loadedAlone (max loadedAlone.prog.loadedAt loadedAlone.prog.args.notBefore)) = none ∧
    leadOk (advance loadedAlone (max loadedAlone.prog.loadedAt loadedAlone.prog.args.notBefore)) (makeRecord
        (advance loadedAlone (max loadedAlone.prog.loadedAt loadedAlone.prog.args.notBefore)) true).lead =
      true ∧
    awaitsL1 (waitsAcks [(2, 0)]) = true ∧
    allAcked (waitsAcks [(2, 0)]) = true ∧
    awaitsL1 (waitsAcks []) = true ∧
    allAcked (waitsAcks []) = false ∧
    (loadedMember 2).prog.phase = ProgPhase.loaded ∧
    standsAlone (loadedMember 2) = false ∧
    isCoord (loadedMember 2) = false ∧
    InputClean (advance loadedAlone (max loadedAlone.prog.loadedAt loadedAlone.prog.args.notBefore)) ∧
    Accepts (loadedMember 2) .member (signed (loadedMember 2) auth2) ∧ InputClean (loadedMember 2) ∧
    launchCheck (noteSeq (loadedMember 2) auth2) goodRecord = none ∧
    (planCheck (noteSeq (loadedMember 2) auth2) { goodRecord with version := 2 }).isSome = true ∧
    Accepts badInput .member (signed badInput auth2) ∧ planCheck (noteSeq badInput auth2) goodRecord = none ∧
    inputRefusal (noteSeq badInput auth2) = some 0x0A ∧
    Accepts (waitsAcks []) .member (signed (waitsAcks []) auth2) ∧
    auth2.sender ∈ others (waitsAcks []) ∧
    ackOf (waitsAcks []) auth2.sender = none := by
  unfold InputClean
  and_intros <;> first
    | (with_reducible refine signed_accepts _ _ _ ?_ ?_ ?_) <;> decide +kernel
    | decide +kernel

/-- A paired step program at its commit, the partner's heads being `peers`. -/
def pairedCommit (peers : List (Nat × Digest)) : State :=
  let s := commitState 3 true (some { step := 8, stroke := 3 })
  { s with proofs := { pairState := 1, iSize := 1, peerHeads := peers } }

theorem witness_StrokesCommit :
    let head := sha256 (digestBytes (pairedCommit []).proofs.head ++
      chainBody (pairedCommit []) false (pairedCommit []).prog.devices 8 0 0)
    (∀ s ∈ [pairedCommit [], pairedCommit [(8, 5)]], s.proofs.pairState = 1 ∧ s.tick.launched = true ∧
      s.tick.commits = [(3, 600), (4, 0)] ∧ s.prog.step = true ∧ s.srv.decision = some { step := 8, stroke := 3 } ∧
      s.memory.ddr.flips = [] ∧ s.load.fell ≠ some 8 ∧ s.load.queue = [] ∧ s.proofs.store = [] ∧
      s.proofs.held = [] ∧ s.proofs.due = none ∧ s.proofs.ownHeads = [] ∧ recordRoom s 1 = true) ∧
    ((pairedCommit []).proofs.peerHeads.find? fun p => p.1 == 8) = none ∧
    ((pairedCommit [(8, 5)]).proofs.peerHeads.find? fun p => p.1 == 8) = some (8, 5) ∧ 5 ≠ head ∧
    ((pairedCommit [(8, head)]).proofs.peerHeads.find? fun p => p.1 == 8) = some (8, head) ∧
    recordRoom (pairedCommit [(8, head)]) 1 = true ∧
    600 ≠ 0 ∧
    (commitState 1 false none).tick.commits = (1, 600) :: [(2, 0)] ∧
    (commitState 1 false none).tick.launched = true ∧
    (commitState 1 false none).proofs.pairState ≠ 1 ∧
    (commitState 1 false none).prog.step = false ∧
    1 ≠ strokeCount (commitState 1 false none).prog.strokes ∧
    (commitState 3 false none).tick.commits = (3, 600) :: [(4, 0)] ∧
    (commitState 3 false none).tick.launched = true ∧
    (commitState 3 false none).proofs.pairState ≠ 1 ∧
    (commitState 3 false none).prog.step = false ∧
    3 ≠ strokeCount (commitState 3 false none).prog.strokes ∧
    (commitState 4 false none).tick.commits = (4, 600) :: [(5, 0)] ∧
    (commitState 4 false none).tick.launched = true ∧
    (commitState 4 false none).proofs.pairState ≠ 1 ∧
    (commitState 4 false none).prog.step = false ∧
    4 = strokeCount (commitState 4 false none).prog.strokes ∧
    (commitState 3 true (some { step := 8, stroke := 3 })).tick.commits = (3, 600) :: [(4, 0)] ∧
    (commitState 3 true (some { step := 8, stroke := 3 })).tick.launched = true ∧
    (commitState 3 true (some { step := 8, stroke := 3 })).proofs.pairState ≠ 1 ∧
    (commitState 3 true (some { step := 8, stroke := 3 })).prog.step = true ∧
    (commitState 3 true (some { step := 8, stroke := 3 })).srv.decision = some { step := 8, stroke := 3 } ∧
    (commitState 3 true (some { step := 8, stroke := 3 })).memory.ddr.flips = [] ∧
    (commitState 3 true (some { step := 8, stroke := 3 })).proofs.pairState = 0 ∧
    (commitState 3 true (some { step := 8, stroke := 3 })).load.queue = [] ∧
    (commitState 3 true none).tick.commits = (3, 600) :: [(4, 0)] ∧
    (commitState 3 true none).tick.launched = true ∧
    (commitState 3 true none).proofs.pairState ≠ 1 ∧
    (commitState 3 true none).prog.step = true ∧
    (commitState 3 true none).srv.decision = none := by
  dsimp only
  and_intros <;> decide +kernel

/-- What holds of the default and of every entry holds at every key. -/
theorem of_entries {α : Type} (P : α → Prop) (d : α) (m : FMap α) (hd : P d) (hm : ∀ p ∈ m, P p.2) (k : Nat) :
    P (look d m k) := by
  rcases look_mem d m k with h | h
  · rw [h]; exact hd
  · exact hm _ h

theorem witness_MemoryEventsComplete :
    let quiet := fun s : State => s.memory.scrubEn = true ∧ s.memory.zeroed = true
    let flipped := scrubState [(8, 1), (300, 3)]
    let spare := { memState with memory := { memState.memory with
      spares := [(2, { pos := 9, flips := [(8, 1)] })] } }
    (quiet memState ∧ badWords memState.memory.ddr (lineOf 0) 64 = [] ∧ ∀ c, (chanAt memState c).ue < 16) ∧
    (quiet flipped ∧ badWords flipped.memory.ddr (lineOf 64) 64 = [] ∧
      correctedWords flipped.memory.ddr (lineOf 64) 64 = [8] ∧ ∀ c, (chanAt flipped c).ue < 16) ∧
    (quiet spare ∧ 9 ≤ (spareAt spare 2).pos ∧ (spareAt spare 2).progress ≠ 100 ∧ (chanAt spare 29).ue < 16 ∧
      badWords { flips := (spareAt spare 2).flips } (lineOf 64) 64 = [] ∧
      correctedWords { flips := (spareAt spare 2).flips } (lineOf 64) 64 = [8]) ∧
    memState.tick.running = true ∧
    ((spareAt memState 2).pos < 9 ∧ (spareAt memState 2).progress < 100 ∧ (chanAt memState 24).ue < 16 ∧
      ∀ p ∈ memState.memory.ddr.flips, chanOf (8 * p.1) = 22 → (eccRead p.2).1 ≠ .bad) ∧
    (kindAt memState.memory 0 = some 0 ∨ kindAt memState.memory 0 = some 2) ∧
    (List.replicate 2048 (7 : Byte)).length = 2048 ∧
    ∀ p ∈ memState.cores, ∀ q ∈ p.2.dma, ∀ op ∈ q.2, op.stall ≠ some (0 / 2048 * 2048) := by
  have ue : ∀ c, (chanAt memState c).ue < 16 := fun c =>
    of_entries (fun x : Chan => x.ue < 16) {} memState.memory.chans (by decide +kernel) (by decide +kernel) c
  refine ⟨⟨?_, ?_, ue⟩, ⟨?_, ?_, ?_, ue⟩, ?_⟩
  all_goals decide +kernel

theorem witness_RegisterAccessSizes :
    (0 ≠ 1 ∧ 0 ≠ 2 ∧ 0 ≠ 4 ∧ 0 ≠ 8 ∨ 0 % 0 ≠ 0) ∧
    (1 = 1 ∨ 1 = 2) ∧
    0 % 1 = 0 ∧
    0 % 8 = 0 := by decide +kernel

theorem witness_ReadsThatChangeState :
    (1 = 1 ∨ 1 = 2 ∨ 1 = 8) ∧
    (0 + 0 ≤ 196676 ∨ 196680 ≤ 0) ∧
    (0 + 0 ≤ 262152 ∨ 262156 ≤ 0) := by decide +kernel

theorem witness_RegisterWritesActByField :
    let vf := fnState 3 { pci := { present := true } }
    { noProg regState with tick := { regState.tick with lock := true } }.tick.lock = true ∧
    regState.tick.lock = false ∧ (heathAt regState 0).on = true ∧
    (fnAt vf 3).pci.present = true ∧ (look {} vf.hif.msix (4096 * 3 + 1)).pend = false ∧
    (fnAt (fnState 4 { pci := { present := false } }) 4).pci.present = false ∧ bit (1 : DWord).toNat 0 = true := by decide +kernel

theorem witness_HeathOffReadsAsReset :
    (heathAt regState 1).state = HeathState.off := by decide +kernel

theorem witness_RegionEntriesTakeTheirFields :
    (progLive regState && (regionNo regState.memory 2).valid) = false ∧
    (progLive regState && (regionNo regState.memory 0).valid) = true := by decide +kernel

/-- Settings of the serving engine with a request and a tenant. -/
def servSet : State :=
  { noProg regState with srv :=
      { areaBase := 10, areaSize := 2
        books := { reqs := [(0, { state := .queued })], tenants := [(3, { cost := 1 })] } } }

theorem witness_ServingSettingsChange :
    (¬(0 = servSet.srv.pageTok ∧ 0 = servSet.srv.pfxMode)) ∧
    servSet.srv.books.reqs ≠ [] ∧
    (¬(0 = regState.srv.pageTok ∧ 0 = regState.srv.pfxMode)) ∧
    regState.srv.books.reqs = [] ∧
    progLive adState = false ∧
    adState.load.adapters = [] ∧
    adState.load.adEnable = false ∧
    (freeRegion adState.memory).isSome = true ∧
    (adState.load.adBase + 1 * 1) * 2 ^ 21 ≤ ddrEnd ∧
    meetsRegion adState.memory (adState.load.adBase * 2 ^ 21) ((adState.load.adBase + 1 * 1) * 2 ^ 21) = false ∧
    nextCopy proofState = some (proofState.proofs.store.getD 0 {}) ∧
    proofRoom proofState = true ∧
    proofState.proofs.pairState ≠ 1 ∧
    badWords proofState.memory.ddr (storeAddr proofState (proofState.proofs.store.getD 0 {}).q) 256 = [] ∧
    correctedWords proofState.memory.ddr (storeAddr proofState (proofState.proofs.store.getD 0 {}).q) 256 = [] ∧
    proofState.proofs.waitDone = none ∧ (∀ y ∈ proofState.proofs.store, proofState.proofs.inRing < y.proof.last) ∧
    servSet.prog.step = false ∧ adState.load.waiting = false := by
  decide +kernel

theorem witness_FunctionsEnableAndDisable :
    ((fnAt (fnState 0 {}) 0).state = 0 ∧ (fnState 0 {}).die.d48 = true ∧ mayEnable 0 {} = true ∧
      (fnAt (fnState 0 {}) 0).resetEv = false ∧ ctxTable.status = .ok ∧ ctxOk 0 ctxTable = true ∧
      ({} : Fetch).status = .ok ∧ ctxOk 0 {} = false ∧ ({ status := .poison } : Fetch).status ≠ .ok) ∧
    (DisableCause.enableClear ≠ .flr ∧ DisableCause.enableClear ≠ .hostLink ∧ (fnAt (sActive 0) 0).state = 1 ∧
      ∀ h ∈ (fnAt (sActive 0) 0).held, h.frees = none) ∧
    ((fnAt (sActive 1) 1).state = 1 ∧ ∀ h ∈ (fnAt (sActive 1) 1).held, h.frees = none) ∧
    (fnAt (fnState 1 { state := 2 }) 1).state = 2 ∧ (ringAt (fnState 1 { state := 2 }) 1 128).vector < 4096 := by
  decide +kernel

theorem witness_DoorbellsAndRings :
    let one := { heldState with hif := { heldState.hif with fns := [(1, { fnAt heldState 1 with dropped := 4 })] } }
    let room := fun (s : State) (q head : Nat) => ringRoom { ringAt s 1 q with consumed := head % 2 ^ 32 }
    ((fnAt (sActive 0) 0).state = 1 ∧ (sActive 0).die.d48 = true ∧ (ringAt (sActive 0) 0 0).valid = true ∧
      (ringAt (sActive 0) 0 0).stopped = false ∧ (ringAt (sActive 0) 0 (64 + 0)).valid = true ∧
      (1 % 2 ^ 32 + 2 ^ 32 - (ringAt (sActive 0) 0 0).consumed % 2 ^ 32) % 2 ^ 32 ≤ 2 ^ (ringAt (sActive 0) 0 0).log2 ∧
      (sActive 0).hif.link.cache = true) ∧
    ((fnAt (pollState 1) 1).state = 1 ∧ (pollState 1).die.d48 = true ∧ (ringAt (pollState 1) 1 0).valid = true ∧
      (ringAt (pollState 1) 1 0).stopped = false ∧ (ringAt (pollState 1) 1 (64 + 0)).valid = true ∧
      (1 % 2 ^ 32 + 2 ^ 32 - (ringAt (pollState 1) 1 0).consumed % 2 ^ 32) % 2 ^ 32 ≤ 2 ^ (ringAt (pollState 1) 1 0).log2 ∧
      (pollState 1).hif.link.cache = false ∧ (pollState 1).hif.link.rate ≠ 0) ∧
    ((fnAt lostState 1).state = 1 ∧ (fnAt lostState 1).held = []) ∧
    ((fnAt one 1).state = 1 ∧ (ringAt one 1 64).valid = true ∧
      (fnAt one 1).held = [{ ring := 64, words := List.replicate 8 1 }]) ∧
    (let s := { one with
        prog := { one.prog with phase := .running }
        hif := { one.hif with fns := [(1, { fnAt one 1 with held := [{ ring := 0, words := List.replicate 8 1, at_ := 2 }] })] } }
     let t := { s with memory := { s.memory with ddr := { flips := [((queueAddr s 1 + 128) / 8, 3)] } } }
     (fnAt t 1).state = 1 ∧ (ringAt t 1 (64 + 0)).valid = true ∧ room t (64 + 0) 8 = true ∧
      (fnAt t 1).held = [{ ring := 0, words := List.replicate 8 1, at_ := 2 }] ∧
      spanHits s.memory.ddr [(queueAddr s 1 + 64 * 2, 64)] = [] ∧
      spanHits t.memory.ddr [(queueAddr t 1 + 64 * 2, 64)] = [(queueAddr t 1 + 128, true)] ∧
      t.prog.phase = .running ∧ t.prog.step = false ∧ t.tick.stop.valid = false) ∧
    (let s := { one with hif := { one.hif with fns := [(1, { fnAt one 1 with held := [{ ring := 0, words := List.replicate 8 1 }] })] } }
     (fnAt s 1).state = 1 ∧ (ringAt s 1 (64 + 0)).valid = true ∧
      (fnAt s 1).held = [{ ring := 0, words := List.replicate 8 1 }] ∧ room s (64 + 0) 8 = true ∧
      (ringAt s 1 128).valid = true ∧ (fnAt s 1).dropped ≠ 0 ∧ room s 128 0 = true) ∧
    (ReadStatus.poison ≠ .ok ∧ ReadStatus.failed ≠ .ok) ∧
    ((ringAt (pollState 1) 1 64).irq = true ∧ (ringAt (pollState 1) 1 64).unsig ≠ 0 ∧
      (ringAt (pollState 1) 1 64).coalTicks ≠ 0 ∧
      (look {} (pollState 1).hif.msix (msixKey 1 (ringAt (pollState 1) 1 64).vector)).masked = false) ∧
    3 < vectorsOf 1 := by decide +kernel

theorem witness_RequestDescriptorsTaken :
    let one := { serving with hif := { serving.hif with fns := [(1, activeFn)] } }
    (Reads serving 0 0 (dSubmit 2) 0x01 ∧ freeReq serving = some 1 ∧ reqBad serving 1 = false ∧
      tenantBad serving (subTenant (dSubmit 2)) = false ∧
      submitRefusal (consume serving 0 0) 0 (dSubmit 2) prompt4 prompt4 prompt4 = none ∧
      freeReq (consume serving 0 0) = some 1) ∧
    (Reads one 1 0 (dSubmit 3) 0x01 ∧ freeReq one = some 1 ∧ reqBad one 1 = false ∧
      tenantBad one (subTenant (dSubmit 3)) = false ∧
      (submitRefusal (consume one 1 0) 1 (dSubmit 3) prompt4 prompt4 prompt4).isSome = true) ∧
    (Reads serving 0 0 (dCancel 0 7) 0x02 ∧ bits (descWord (dCancel 0 7) 0) 47 32 = 0 ∧ reqBad serving 0 = false ∧
      unended (reqAt serving 0) = true ∧ (reqAt serving 0).tag = dw (descWord (dCancel 0 7) 2) ∧
      progLive serving = true ∧ serving.prog.step = true) ∧
    (Reads serving 0 0 (dCancel 2 8) 0x02 ∧ bits (descWord (dCancel 2 8) 0) 47 32 = 2 ∧
      reqBad serving 2 = false ∧ unended (reqAt serving 2) = false) ∧
    (Reads serving 0 0 dBudget 0x07 ∧ tenantBad serving (bits (descWord dBudget 0) 43 32) = false ∧
      fnActive (consume serving 0 0) (budgetOf dBudget).fn = true ∧ stepRuns serving = true) ∧
    (let s := { serving with
        prog := { serving.prog with phase := .done }
        srv := { serving.srv with books := { reqs := [(0, { state := .queued, fn := 0, tenant := 3 })] } } }
     Reads s 0 0 dBudget 0x07 ∧ tenantBad s (bits (descWord dBudget 0) 43 32) = false ∧
      fnActive (consume s 0 0) (budgetOf dBudget).fn = true ∧ stepRuns s = false ∧
      tenantActive s (bits (descWord dBudget 0) 43 32) ≠ 0 ∧
      (budgetOf dBudget).fn ≠ (tenantAt s (bits (descWord dBudget 0) 43 32)).fn) ∧
    (readRefusal .poison).isSome = true ∧ (readRefusal .failed).isSome = true ∧
    (Reads serving 0 0 dRetire 0x06 ∧
      (adapterOf serving (bits (descWord dRetire 0) 34 32) (bits (descWord dRetire 0) 55 36)
        (bits (descWord dRetire 2) 31 0) (· == .live)) = some 5) ∧
    (Reads serving 0 0 (dQuery 0 0) 0x0A ∧ bits (descWord (dQuery 0 0) 0) 34 32 = 0 ∧
      bits (descWord (dQuery 0 0) 0) 63 40 = 0 ∧ mayQuery (consume serving 0 0) 0 0 0 = true) ∧
    Reads one 1 0 (dQuery 1 0) 0x0A ∧ bits (descWord (dQuery 1 0) 0) 34 32 = 1 ∧
    bits (descWord (dQuery 1 0) 0) 63 40 = 0 ∧ tenantBad one 0 = false ∧
    mayQuery (consume one 1 0) 1 1 0 = false := by
  unfold Reads
  dsimp only
  and_intros <;> decide +kernel

theorem witness_LoadsAndLaunchesTaken :
    let quiet := fun s : State => s.load.cur = none ∧ s.load.writing = false ∧ ddrHeld s = false ∧ s.load.queue = []
    let zeroing := { idle with guard := { running := some .zeroizeDdr } }
    let reads := fun (s : State) (ty kind : Nat) (b : Fetch) =>
      Reads s 0 0 (dLoad ty) ty ∧ loadRefusal (consume s 0 0) (dLoad ty) kind b = none
    let op := fun (s : State) (ty kind : Nat) (b : Fetch) =>
      loadOpOf (consume s 0 0) (askerFor (consume s 0 0) 0 0 (dLoad ty)) kind b
    let full := { idle with load := { idle.load with adCount := 1, adapters := [(0, { state := .live, id := 77 })] } }
    let loaded := { idle with prog := { idle.prog with phase := .loaded, step := false } }
    (quiet idle ∧ (reads idle 3 1 (blockOf 0 0 1 (2 ^ 20) 0) ∧
        (op idle 3 1 (blockOf 0 0 1 (2 ^ 20) 0)).near = 2 ^ 20 ∧ (op idle 3 1 (blockOf 0 0 1 (2 ^ 20) 0)).set = 1 ∧
        modelRefusal (consume idle 0 0) (op idle 3 1 (blockOf 0 0 1 (2 ^ 20) 0)) = none) ∧
      (reads idle 3 1 (blockOf 0 0 0 (2 ^ 20) 0) ∧
        (modelRefusal (consume idle 0 0) (op idle 3 1 (blockOf 0 0 0 (2 ^ 20) 0))).isSome = true) ∧
      (reads idle 3 1 (blockOf 1 0 1 (2 ^ 20) 0) ∧
        modelRefusal (consume idle 0 0) (op idle 3 1 (blockOf 1 0 1 (2 ^ 20) 0)) = none ∧
        1 < (op idle 3 1 (blockOf 1 0 1 (2 ^ 20) 0)).set ∧
        1 ≠ ownMember idle (op idle 3 1 (blockOf 1 0 1 (2 ^ 20) 0)) ∧ idle.load.readies.contains 1 = false)) ∧
    (reads idleBusy 3 1 (blockOf 0 0 1 (2 ^ 20) 0) ∧ idleBusy.load.cur ≠ none) ∧
    (reads zeroing 3 1 (blockOf 0 0 1 (2 ^ 20) 0) ∧ ddrHeld zeroing = true ∧ reads zeroing 5 3 (adapterBlock 0)) ∧
    (reads idle 3 1 (blockOf 0 0 0 0 0) ∧ (op idle 3 1 (blockOf 0 0 0 0 0)).near = 0 ∧
      (emptyRefusal (consume idle 0 0) (op idle 3 1 (blockOf 0 0 0 0 0))).isSome = true) ∧
    (let s := { idle with load := { idle.load with
        slots := [(0, { state := .resident, near := 64, root := (op idle 3 1 (blockOf 0 0 0 0 0)).root })] } }
     quiet s ∧ reads s 3 1 (blockOf 0 0 0 0 0) ∧
      emptyRefusal (consume s 0 0) (op s 3 1 (blockOf 0 0 0 0 0)) = none) ∧
    (reads idle 5 3 (adapterBlock 0) ∧ adapterRefusal (consume idle 0 0) (op idle 5 3 (adapterBlock 0)) = none ∧
      freeAdapter (consume idle 0 0) = some 0 ∧ (slotAt idle 0).split < 4 ∧ (op idle 5 3 (adapterBlock 0)).set = 1) ∧
    (quiet full ∧ (∀ policy < 2, reads full 5 3 (adapterBlock policy) ∧
        adapterRefusal (consume full 0 0) (op full 5 3 (adapterBlock policy)) = none ∧
        (op full 5 3 (adapterBlock policy)).policy = policy) ∧
      freeAdapter (consume full 0 0) = none) ∧
    (let s := { idle with load := { idle.load with adapters := [(3, { state := .live })] } }
     quiet s ∧ reads s 5 3 (adapterBlock 0) ∧
      (adapterRefusal (consume s 0 0) (op s 5 3 (adapterBlock 0))).isSome = true) ∧
    reads idleBusy 5 3 (adapterBlock 0) ∧
    (reads idle 4 2 (blockOf 0 0 0 64 9) ∧ swapRefusal (consume idle 0 0) (op idle 4 2 (blockOf 0 0 0 64 9)) = none) ∧
    (reads idle 4 2 (blockOf 0 0 1 64 9) ∧
      (swapRefusal (consume idle 0 0) (op idle 4 2 (blockOf 0 0 1 64 9))).isSome = true) ∧
    (Reads idle 0 0 (dLaunch 0) 0x08 ∧
      launchRefusal (consume idle 0 0) (descWord (dLaunch 0) 5) (loadBlock 1 (2 ^ 20) (2 ^ 22) 0 0) = none) ∧
    (Reads idle 0 0 (dLaunch 0x3000) 0x08 ∧
      (launchRefusal (consume idle 0 0) (descWord (dLaunch 0x3000) 5) { words := [1, 0, 64] }).isSome = true) ∧
    Reads loaded 0 0 dAbort 0x09 ∧ (standsAlone loaded = true ∨ isCoord loaded = true) ∧
    loaded.prog.phase = .loaded ∧ loaded.tick.launched = false ∧ loaded.prog.abort = none := by
  unfold Reads
  dsimp only
  and_intros <;> decide +kernel

theorem witness_FuseCommands :
    (fuseRefusal fuseState 1 1 2).isSome = true ∧ (fuseRefusal fuseState 2 0 9).isSome = true ∧
    fuseRefusal fuseState 1 3 2 = none ∧ fuseState.guard.off = false ∧ fuseState.die.d48 = true ∧
    fuseState.guard.queue.length ≤ 4 ∧ fuseState.guard.running = none ∧ fuseState.guard.side = [] ∧
    fuseState.guard.queue = [] ∧ (fuseBusy 1 3).lcf.run = (1, 3) ∧
    (∀ op ∈ [GuardOp.zeroizeKeys, .zeroizePlates, .zeroizeDdr], guardKnown (fuseBusy 1 3) op = false ∧
      guardKnown { fuseBusy 1 3 with guard := { running := some op } } op = true) ∧ fuseRefusal fuseState 2 0 1 = none ∧
    fuseRefusal fuseState 3 0 fuseState.lcf.commits = none ∧ fuseRefusal fuseState 4 1 fuseState.lcf.revLeft = none ∧
    fuseRefusal fuseState 5 3 5 = none ∧ fuseRefusal fuseState 6 0 fuseState.lcf.eligLeft = none ∧
    fuseRefusal fuseState 7 0 1 = none ∧ fuseRefusal fuseState 8 0 0 = none ∧
    (progHeld fuseState = false ∧ fuseState.lcf.busy = false ∧ fuseState.die.fusedGrade = 1 ∧
      0 < fuseState.die.downbinLeft) ∧
    ∀ cmd < 9, (fuseBusy cmd 3).lcf.busy = true ∧ (fuseBusy cmd 3).lcf.run = (cmd, 3) := by decide +kernel

theorem witness_GuardOperationsStart :
    let starts := fun (s : State) (op : GuardOp) => s.guard.off = false ∧ guardAvailable s op = true ∧
      s.guard.running = none ∧ s.guard.side = [] ∧ guardKnown s op = false
    let dumps := { guardState with guard := { running := some .dump } }
    (∀ op ∈ [GuardOp.freeze, .fenceAll, .hostFlush, .dump, .powerOff], starts guardState op) ∧
    (∀ op ∈ [GuardOp.freeze, .dump, .heathReset, .zeroizeKeys, .zeroizePlates, .zeroizeDdr],
      starts guardIdle op ∧ guardIdle.tick.launched = false) ∧
    (guardState.tick.launched = true ∧ progLive guardState = true ∧ guardState.tick.stop.valid = false) ∧
    guardIdle.proofs.due.isSome = true ∧
    starts { guardIdle with proofs := {} } .zeroizeKeys ∧
    (dumps.guard.off = false ∧ guardAvailable dumps .hostFlush = true ∧
      ¬ (dumps.guard.running = none ∧ dumps.guard.side = []) ∧ guardKnown dumps .hostFlush = false ∧
      dumps.guard.queue.length < 7) ∧
    (∀ op ∈ [GuardOp.freeze, .fenceAll], guardAvailable dumps op = true ∧ guardKnown dumps op = false) ∧
    (let full := { guardState with guard := { running := some .dump, queue := List.replicate 7 .hostFlush } }
     full.guard.off = false ∧ guardAvailable full .zeroizeKeys = true ∧ guardKnown full .zeroizeKeys = false ∧
      ¬ (full.guard.running = none ∧ full.guard.side = []) ∧ 7 ≤ full.guard.queue.length) ∧
    (guardAvailable dumps .dump = true ∧ guardKnown dumps .dump = true) ∧
    { guardState with guard := { off := true } }.guard.off = true ∧
    { guardState with die := {} }.guard.off = false ∧
    guardAvailable { guardState with die := {} } .freeze = false := by decide +kernel

theorem witness_GuardOperationsComplete :
    { guardState with guard := { running := some .dump }}.guard.side = [] ∧
    ({ guardState with guard := { running := some .dump }}.guard.running).isSome = true ∧
    { guardState with guard := { running := some .dump }}.guard.queue = [] ∧
    { guardState with guard := { running := some .zeroizeDdr }}.guard.running = some .zeroizeDdr ∧
    { guardState with guard := { running := some .zeroizeDdr }}.hif.sharedWait = [] ∧
    { guardState with guard := { running := some .zeroizePlates, queue := [.dump] }}.guard.side = [] ∧
    { guardState with guard := { running := some .zeroizePlates, queue := [.dump] }}.guard.running =
      some .zeroizePlates ∧
    { guardState with guard := { running := some .zeroizePlates, queue := [.dump] }}.guard.queue = .dump :: [] ∧
    guardAvailable { guardState with guard := { running := some .zeroizePlates, queue := [.dump] }} .dump =
      true ∧
    { guardState with guard := { running := some .zeroizePlates, side := [.freeze] }}.guard.side =
      .freeze :: [] ∧
    { guardState with guard := { running := some .zeroizePlates, side := [.freeze] }}.guard.running =
      some .zeroizePlates ∧
    ({ guardState with guard := { running := some .heathReset, arg := 5 }}.guard.running =
      some GuardOp.zeroizePlates ∨
      { guardState with guard := { running := some .heathReset, arg := 5 }}.guard.running =
      some GuardOp.heathReset ∧
      { guardState with guard := { running := some .heathReset, arg := 5 }}.guard.arg.getLsbD 0 = true) :=
      by decide +kernel

theorem witness_LinkControl :
    let at_ := fun l : Link => linkState l false
    ((linkAt (at_ (busyLink .off)) 0).state = .off ∧ (at_ (busyLink .off)).die.d48 = true) ∧
    (linkAt (at_ (busyLink .training)) 0).state ≠ .off ∧
    ((linkAt (at_ (busyLink .up)) 0).state = .up ∧ (linkAt (at_ (busyLink .up)) 0).prio.stop = none) ∧
    (linkAt (at_ (busyLink .quarantine)) 0).state = .quarantine ∧
    (linkAt (at_ (busyLink .retrain)) 0).state = .retrain ∧
    ((linkAt (at_ (prioLink 1)) 0).state = .up ∧ (linkAt (at_ (prioLink 1)) 0).prio.stop ≠ none) ∧
    (let l := linkAt (at_ (busyLink .off)) 0
     l.state ≠ .up ∧ l.state ≠ .quarantine ∧ l.state ≠ .retrain ∧ l.state ≠ .fenced) ∧
    ((linkAt (at_ (busyLink .fenced)) 0).state = .fenced ∧ (linkAt (at_ (busyLink .fenced)) 0).lanesOff = false) ∧
    ((linkAt (at_ { busyLink .fenced with lanesOff := true }) 0).state = .fenced ∧
      (linkAt (at_ { busyLink .fenced with lanesOff := true }) 0).lanesOff = true) ∧
    progLive (at_ (busyLink .up)) = false ∧
    (linkAt (linkState (busyLink .up) true) 0).state ≠ .quarantine ∧ progLive (linkState (busyLink .up) true) = true ∧
    loading (at_ (busyLink .up)) = none := by decide +kernel

theorem witness_TrainingAndDiscovery :
    let verdicts := fun (mine : Nat) (fence : Bool) =>
      linkAt (linkState { plannedLink with verdict := some (mine, 0), peer := some goodDisc, fence := fence } false) 0
    let disc := linkAt (linkState (busyLink .discovery) false) 0
    ((linkAt (linkState (busyLink .training) false) 0).state = .training ∧ 2 ≤ (lanesFailed 3).length ∧
      (lanesFailed 0).length < 2) ∧
    (disc.state = .discovery ∧ disc.peerVerdict = none ∧ disc.verdict = none) ∧
    (linkAt (linkState (busyLink .up) false) 0).state = .up ∧
    (linkAt (linkState (busyLink .quarantine) false) 0).state = .quarantine ∧
    (∀ mine < 3, (verdicts mine false).state = .discovery ∧ (verdicts mine false).verdict = some (mine, 0) ∧
      (verdicts mine false).fence = false) ∧
    (∀ mine < 2, (verdicts mine true).state = .discovery ∧ (verdicts mine true).verdict = some (mine, 0) ∧
      (verdicts mine true).fence = true) ∧
    (verdicts 0 false).peer = some goodDisc ∧ max 0 0 = 0 ∧ max 0 1 = 1 ∧ max 0 2 = 2 := by decide +kernel

/-- A trailer's two halves: what it says, and the flit's CRC. -/
theorem wire_trailer (l : Link) (f : TxFlit) (q : Nat) (h : trailerWord l q < 2 ^ 64) :
    (wireFlit l f q).trailer.toNat = trailerWord l q +
      (flitCrc (wireFlit l f q).header (wireFlit l f q).payload (trailerWord l q)).toNat * 2 ^ 64 := by
  have := (flitCrc (wireFlit l f q).header (wireFlit l f q).payload (trailerWord l q)).isLt
  show (BitVec.ofNat 128 _).toNat = _
  simp only [BitVec.toNat_ofNat]
  exact Nat.mod_eq_of_lt (by omega)

/-- A flit that is sent passes the receiver's checks if its header does. -/
theorem wire_good (l : Link) (f : TxFlit) (q : Nat) (r : Link) (h : trailerWord l q < 2 ^ 64)
    (ok : (let w := (wireFlit l f q).header.toNat
      (wireFlit l f q).payload.length == 224 && bits w 3 0 == r.proto && bits w 15 13 == 0 &&
        bits w 23 21 == 0 && bits w 127 40 == 0 && bits w 10 8 != 7) = true) :
    goodFlit r (wireFlit l f q) = true := by
  have lo : (wireFlit l f q).trailer.toNat % 2 ^ 64 = trailerWord l q := by rw [wire_trailer l f q h]; omega
  have hi : (wireFlit l f q).trailer.toNat >>> 64 = (flitCrc (wireFlit l f q).header
      (wireFlit l f q).payload ((wireFlit l f q).trailer.toNat % 2 ^ 64)).toNat := by
    rw [lo, wire_trailer l f q h, Nat.shiftRight_eq_div_pow]
    omega
  unfold goodFlit
  dsimp only at ok ⊢
  rw [hi]
  simp only [BEq.rfl, Bool.and_true]
  exact ok

/-- What a trailer says is read from its low half. -/
theorem wire_bits (l : Link) (f : TxFlit) (q hi lo : Nat) (h : trailerWord l q < 2 ^ 64) (hh : hi < 64) (hl : lo
    ≤ hi) :
    bits (wireFlit l f q).trailer.toNat hi lo = bits (trailerWord l q) hi lo := by
  have : (wireFlit l f q).trailer.toNat % 2 ^ 64 = trailerWord l q := by rw [wire_trailer l f q h]; omega
  rw [← this]
  unfold bits
  rw [Nat.shiftRight_eq_div_pow, Nat.shiftRight_eq_div_pow]
  have e : 2 ^ 64 = 2 ^ lo * 2 ^ (64 - lo) := by rw [← Nat.pow_add]; congr 1; omega
  rw [e, Nat.mod_mul_right_div_self, Nat.mod_mod_of_dvd]
  exact Nat.pow_dvd_pow 2 (by omega)

theorem wire_bit (l : Link) (f : TxFlit) (q i : Nat) (h : trailerWord l q < 2 ^ 64) (hi : i < 64) :
    bit (wireFlit l f q).trailer.toNat i = bit (trailerWord l q) i := by
  have : (wireFlit l f q).trailer.toNat % 2 ^ 64 = trailerWord l q := by rw [wire_trailer l f q h]; omega
  rw [← this]
  show Nat.testBit _ i = Nat.testBit (_ % 2 ^ 64) i
  rw [Nat.testBit_mod_two_pow]
  simp [hi]

/-- A sent flit's state as its slot comes. -/
def slotOf (l : Link) : State := frameStep (linkState l false) 0

theorem witness_FlitsSentAndReceived :
    (linkRuns (linkAt (linkState (prioLink 1) false) 0) = true ∧
    (linkAt (linkState (prioLink 1) false) 0).state = .up ∧
    (linkAt (linkState (prioLink 1) false) 0).prio.stop = some (prio0, 1) ∧
    (linkAt (linkState (prioLink 1) false) 0).fenceDue = false ∧
    linkRuns (linkAt (linkState { prioLink 1 with fenceDue := true } false) 0) = true ∧
    (linkAt (linkState { prioLink 1 with fenceDue := true } false) 0).state = .up ∧
    (linkAt (linkState { prioLink 1 with fenceDue := true } false) 0).prio.stop = some (prio0, 1) ∧
    (linkAt (linkState { prioLink 1 with fenceDue := true } false) 0).fenceDue = true ∧
    linkRuns (linkAt (linkState discLink false) 0) = true ∧
    (linkAt (linkState discLink false) 0).state ≠ .up ∧
    (linkAt (linkState discLink false) 0).replaying = none ∧
    pickFlit (slotOf discLink) 0 (linkAt (slotOf discLink) 0) = none ∧
    linkRuns (linkAt (linkState { discLink with msgs := [{ linkmsg := true }] } false) 0) = true ∧
    (linkAt (linkState { discLink with msgs := [{ linkmsg := true }] } false) 0).replaying = none ∧
    (pickFlit (slotOf { discLink with msgs := [{ linkmsg := true }] }) 0
      (linkAt (slotOf { discLink with msgs := [{ linkmsg := true }] }) 0)).map (·.1.linkmsg) = some true ∧
    nextPrio (slotOf replayLink) (linkAt (slotOf replayLink) 0) = none ∧
    linkRuns (linkAt (linkState (busyLink .up) false) 0) = true ∧
    nextPrio (slotOf (busyLink .up)) (linkAt (slotOf (busyLink .up)) 0) = none ∧
    (linkAt (linkState (busyLink .up) false) 0).replaying = none ∧
    (pickFlit (slotOf (busyLink .up)) 0 (linkAt (slotOf (busyLink .up)) 0)).map (·.1.linkmsg) = some false ∧
    (linkAt (linkState (busyLink .fenced) false) 0).state = .fenced ∧
    (linkAt (linkState (busyLink .fenced) false) 0).lanesOff = false ∧
    bits (peerFlit 6 3 0 9 5).header.toNat 10 8 = 6 ∧ bit (peerFlit 6 3 0 9 5).header.toNat 12 = false ∧
    (let l := linkAt (linkState (busyLink .retrain) false) 0
     l.state = .retrain ∧ l.fenceDue = false ∧ l.before = .up ∧ l.spareFor = 15) ∧
    (let l := linkAt (linkState { busyLink .retrain with before := .fenced } false) 0
     l.state = .retrain ∧ l.before = .fenced ∧ l.fence = false) ∧
    (let l := linkAt (linkState { busyLink .retrain with before := .fenced, fence := true } false) 0
     l.state = .retrain ∧ l.before = .fenced ∧ l.fence = true ∧ l.fenceDue = false) ∧
    (let l := linkAt (linkState { busyLink .retrain with fenceDue := true } false) 0
     l.state = .retrain ∧ l.before ≠ .fenced ∧ l.fenceDue = true ∧ l.prio.stop = none) ∧
    goodFlit (linkAt (linkState (busyLink .discovery) false) 0) {} = false ∧
    bits (peerFlit 0 4 2 9 5).header.toNat 10 8 = 0 ∧
    1 ≤ bits (peerFlit 3 3 0 9 5).header.toNat 10 8 ∧
    bits (peerFlit 3 3 0 9 5).header.toNat 10 8 ≤ 4 ∧
    bit (peerFlit 3 3 0 9 5).header.toNat 12 = false ∧
    takesVc (linkAt (linkState (busyLink .discovery) false) 0) (bits (peerFlit 3 3 0 9 5).header.toNat 6 4) =
      true ∧
    foreignKey (linkState (busyLink .discovery) false) (bits (peerFlit 3 3 0 9 5).header.toNat 6 4) (bits
        (peerFlit 3 3 0 9 5).header.toNat 39 24) = false ∧
    1 ≤ bits (peerFlit 4 0 2 9 5).header.toNat 10 8 ∧
    bits (peerFlit 4 0 2 9 5).header.toNat 10 8 ≤ 4 ∧
    bit (peerFlit 4 0 2 9 5).header.toNat 12 = false ∧
    1 ≤ bits (peerFlit 4 4 2 9 5).header.toNat 10 8 ∧
    bits (peerFlit 4 4 2 9 5).header.toNat 10 8 ≤ 4 ∧
    bit (peerFlit 4 4 2 9 5).header.toNat 12 = false ∧
    (linkAt (linkState (busyLink .discovery) false) 0).replay =
      (5, tx 0 4 (List.replicate 8 7), 0) :: [(6, tx 2 4 (List.replicate 8 7), 1)] ∧
    0 < max 1 (linkAt (linkState (busyLink .discovery) false) 0).nReplay ∧
    ((linkAt (linkState (busyLink .up) false) 0).state = LinkState.up ∨
      (linkAt (linkState (busyLink .up) false) 0).state = LinkState.quarantine) ∧
    (recentRetrains (linkState (busyLink .up) false) (linkAt (linkState (busyLink .up) false) 0)).length + 1 ≤
        max 1 (linkAt (linkState (busyLink .up) false) 0).mRetrain ∧
    ((linkAt (linkState { busyLink .up with retrainAt := [900, 800] } false) 0).state = LinkState.up ∨
      (linkAt (linkState { busyLink .up with retrainAt := [900, 800] } false) 0).state = LinkState.quarantine) ∧
    max 1 (linkAt (linkState { busyLink .up with retrainAt := [900,
                                                   800] } false) 0).mRetrain < (recentRetrains (linkState {
        busyLink .up with retrainAt := [900,
      800] } false) (linkAt (linkState { busyLink .up with retrainAt := [900, 800] } false) 0)).length + 1 ∧
    (linkAt (linkState { busyLink .retrain with spareFor := 3 } false) 0).state = LinkState.retrain ∧
    (linkAt (linkState { busyLink .retrain with spareFor := 3 } false) 0).spareFor ≠ 15 ∧
    0 ∈ engineLinks 0 ∧
    linkRuns (linkAt (linkState replayLink false) 0) = true ∧
    (linkAt (linkState replayLink false) 0).replaying = some (5, .timer) ∧
    replayEntry (linkAt (linkState replayLink false) 0) 5 = some (5, tx 0 4 (List.replicate 8 7), 0) ∧
    (spareFor (linkAt (linkState (busyLink .retrain) false) 0) 4).isSome = true) ∧
    goodFlit (linkAt (linkState (busyLink .discovery) false) 0) (peerFlit 0 4 2 9 5) = true ∧
    bit (peerFlit 0 4 2 9 5).trailer.toNat 40 = false ∧
    goodFlit (linkAt (linkState (busyLink .discovery) false) 0) (peerFlit 3 3 0 9 5) = true ∧
    bit (peerFlit 3 3 0 9 5).trailer.toNat 40 = false ∧
    bits (peerFlit 3 3 0 9 5).trailer.toNat 19 0 = (linkAt (linkState (busyLink .discovery) false) 0).expect ∧
    goodFlit (linkAt (linkState (busyLink .discovery) false) 0) (peerFlit 4 0 2 9 5) = true ∧
    bit (peerFlit 4 0 2 9 5).trailer.toNat 40 = false ∧
    bits (peerFlit 4 0 2 9 5).trailer.toNat 19 0 ≠ (linkAt (linkState (busyLink .discovery) false) 0).expect ∧
    seqAhead (linkAt (linkState (busyLink .discovery) false) 0).expect (bits (peerFlit 4 0 2 9 5).trailer.toNat
        19 0) ≤ 2 ^ 19 ∧
    goodFlit (linkAt (linkState (busyLink .discovery) false) 0) (peerFlit 4 4 2 9 5) = true ∧
    bit (peerFlit 4 4 2 9 5).trailer.toNat 40 = false ∧
    2 ^ 19 < seqAhead (linkAt (linkState (busyLink .discovery) false) 0).expect (bits (peerFlit 4 4 2 9
        5).trailer.toNat 19 0) ∧
    goodFlit (linkAt (linkState (busyLink .discovery) false) 0) (peerFlit 6 3 0 9 5) = true ∧
    bit (peerFlit 6 3 0 9 5).trailer.toNat 40 = false ∧
    bits (peerFlit 6 3 0 9 5).trailer.toNat 19 0 = (linkAt (linkState (busyLink .discovery) false) 0).expect := by
  refine ⟨by and_intros <;> decide +kernel, ?_⟩
  unfold peerFlit
  and_intros <;> first
    | (with_reducible refine wire_good _ _ _ _ ?_ ?_) <;> decide +kernel
    | (rw [wire_bit _ _ _ _ (by decide +kernel) (by decide)]; decide +kernel)
    | (rw [wire_bits _ _ _ _ _ (by decide +kernel) (by decide) (by decide)]; decide +kernel)

/-- `packetState` with a load that has started, and with a tag of it. -/
def packetLoads (started : Bool) : State :=
  { packetState with load := (loadState (some (op1 1 2)) started).load }
def loadsRead : State :=
  { packetLoads true with fab := { packetState.fab with tags := [(2, { busy := true, epoch := 1, load := true })] } }
/-- A contribution of rank 1 to a collective of this device, in one packet. -/
def farPart : Packet := { pk 2 true (List.replicate 64 1) with vx := 0x3F }

theorem witness_PacketsArrive :
    (.data ({ pk 2 true [] with pkey := 8 })) ∈ packetCommands { pk 2 true [] with pkey := 8 } ∧
    foreignKey packetState { pk 2 true [] with pkey := 8 }.vc { pk 2 true [] with pkey := 8 }.pkey = true ∧
    (.data ({ pk 2 true [] with version := 2 })) ∈ packetCommands { pk 2 true [] with version := 2 } ∧
    foreignKey packetState { pk 2 true [] with version := 2 }.vc { pk 2 true [] with version := 2 }.pkey =
      false ∧
    ({ pk 2 true [] with version := 2 }.version ≠ 1 ∨
      { pk 2 true [] with version := 2 }.dst ≠ packetState.fab.id ∨ { pk 2 true [] with version := 2 }.discard =
      true) ∧
    Arrives packetState (pk 2 false (List.replicate 64 1)) ∧
    (pk 2 false (List.replicate 64 1)).vx ≠ 63 ∧
    (pk 2 false (List.replicate 64 1)).lastPkt = false ∧
    Arrives packetState (pk 1 true (List.replicate 64 1)) ∧
    (pk 1 true (List.replicate 64 1)).vx ≠ 63 ∧
    (pk 1 true (List.replicate 64 1)).lastPkt = true ∧
    (coreOfXY packetState (pk 1 true (List.replicate 64 1)).vx (pk 1 true (List.replicate 64 1)).vy).isSome =
      true ∧
    checkDev packetState.memory (pk 1 true (List.replicate 64 1)).addr (pk 1 true (List.replicate 64 1)).len
        false = none ∧
    (pk 1 true (List.replicate 64 1)).addr + (pk 1 true (List.replicate 64 1)).len ≤ shareLo ∧
    badWords packetState.memory.ddr (pk 1 true (List.replicate 64 1)).addr (pk 1 true (List.replicate 64 1)).len
        = [] ∧
    correctedWords packetState.memory.ddr (pk 1 true (List.replicate 64 1)).addr (pk 1 true (List.replicate 64
        1)).len = [] ∧
    checkDev packetState.memory (pk 1 true (List.replicate 64 1)).addr (pk 1 true (List.replicate 64
        1)).data.length true = none ∧
    (pk 1 true (List.replicate 64 1)).addr + (pk 1 true (List.replicate 64 1)).data.length ≤ shareLo ∧
    badWords packetState.memory.ddr (pk 1 true (List.replicate 64 1)).addr (pk 1 true (List.replicate 64
        1)).data.length = [] ∧
    Arrives packetState (pkTag 2 1) ∧
    ((.readResp (pkTag 2 1)) = Instr.readResp (pkTag 2 1) ∨ (.readResp (pkTag 2 1)) =
      Instr.writeAck (pkTag 2 1)) ∧
    (tagAt packetState (pkTag 2 1).tag).busy = true ∧
    (tagAt packetState (pkTag 2 1).tag).epoch = (pkTag 2 1).epoch ∧
    ((.readResp (pk 1 true (List.replicate 64 1))) = Instr.readResp (pk 1 true (List.replicate 64 1)) ∨
      (.readResp (pk 1 true (List.replicate 64 1))) = Instr.writeAck (pk 1 true (List.replicate 64 1))) ∧
    ((tagAt packetState (pk 1 true (List.replicate 64 1)).tag).busy = false ∨
      (tagAt packetState (pk 1 true (List.replicate 64 1)).tag).epoch ≠ (pk 1 true (List.replicate 64 1)).epoch)
        ∧
    packetState.fab.waiting = [] ∧ packetState.fab.reqWait = [] ∧ loading packetState = none ∧
    Arrives loadsRead (pkTag 2 1) ∧ (tagAt loadsRead 2).busy = true ∧ (tagAt loadsRead 2).epoch = 1 ∧
    (tagAt loadsRead 2).load = true ∧ (pkTag 2 1).status ≠ 0 ∧ (loading loadsRead).isSome = true ∧
    Arrives packetState farPart ∧ farPart.vx = 0x3F ∧ farPart.vc ≠ 1 ∧ farPart.lastPkt = true ∧
    farPart.src ≠ packetState.fab.id ∧ collOf packetState farPart.slot = some coll0 ∧
    collSource packetState coll0 farPart.src = some 1 ∧ collReceives packetState coll0 = true ∧
    1 < max 1 (collSize packetState coll0) ∧
    (look [] packetState.fab.frags (fragKey farPart) ++ farPart.data).length = contribBytes coll0 ∧
    (∃ q ∈ collNeeds packetState coll0, q ≠ 1 ∧ contribOf packetState coll0 q = none) ∧
    checkDev (withoutWp packetState.memory) (pk 1 true (List.replicate 64 1)).addr 64 true = none ∧
    ddrHeld packetState = false ∧
    (let held := { packetState with guard := { running := some .zeroizeDdr } }
     Arrives held (pk 1 true (List.replicate 64 1)) ∧ ddrHeld held = true ∧ checkDev held.memory 0 64 false = none ∧
      checkDev (withoutWp held.memory) 0 64 true = none ∧ (pk 1 true (List.replicate 64 1)).addr = 0 ∧
      (pk 1 true (List.replicate 64 1)).addr < ddrEnd) ∧
    (Arrives loadsRead { pkTag 2 1 with status := 0 } ∧ failedReq loadsRead = none ∧ loadsRead.fab.reqWait = []) ∧
    Arrives packetState (pkReq 1 (2 ^ 30) []) ∧
    (checkDev packetState.memory (2 ^ 30) 16 false).isSome = true ∧
    Arrives packetState (pkReq 1 (2 ^ 30) [7, 8]) ∧
    (checkDev (withoutWp packetState.memory) (2 ^ 30) 2 true).isSome = true ∧
    collOf packetState coll0.id = some coll0 ∧
    0 < max 1 (collSize packetState coll0) ∧
    (List.replicate 64 2).length = contribBytes coll0 ∧
    (∃ r ∈ collNeeds packetState coll0, r ≠ 0 ∧ contribOf packetState coll0 r = none) ∧
    collOf (collWaits [(1, List.replicate 64 2)]) coll0.id = some coll0 ∧
    0 < max 1 (collSize (collWaits [(1, List.replicate 64 2)]) coll0) ∧
    (∀ r ∈ collNeeds (collWaits [(1, List.replicate 64 2)]) coll0, r = 0 ∨ (contribOf (collWaits [(1,
      List.replicate 64 2)]) coll0 r).isSome = true) ∧
    collNeeds (collWaits [(1, List.replicate 64 2)]) coll0 ≠ [] ∧
    coll0.op = 0 ∧
    coll0.combine ≤ 2 ∧
    ((collWaits [(1, List.replicate 64 2)]).prog.groups[coll0.deliverGroup]?).isSome = true := by
  unfold Arrives
  and_intros <;> decide +kernel

/-- The flits of a packet in transit, as they wait in a receive queue. -/
def transitFlits (dst vc : Nat) (disc : Bool) : List TxFlit :=
  (packetFlits { transitPk dst with vc := vc } false 0).map fun f => { f with discard := disc }
/-- The congestion maps go elsewhere, and are on. -/
def collectsElsewhere : State := { packetState with fab := { packetState.fab with collector := 9 } }

theorem witness_PacketsForwardedAndTimed :
    let s := arrived 0 (transitPk 4) false
    let fs := transitFlits 4 0 false
    let d := arrived 2 (transitPk 4) true
    headPacket (look [] (linkAt s 0).rx 0) = some (fs, []) ∧ (fs.any (·.discard)) = false ∧
    (packetOf 0 (fs.headD {}).pkey (fs.flatMap (·.data))).version = 1 ∧
    nextHop (commonOf s) s.fab.id (stageAt s.fab.id (packetOf 0 (fs.headD {}).pkey (fs.flatMap (·.data)))) =
      .link 7 ∧
    passesOn (linkAt s 7) 0 = true ∧
    headPacket (look [] (linkAt d 0).rx 2) = some (transitFlits 4 2 true, []) ∧
    ((transitFlits 4 2 true).any (·.discard)) = true ∧
    (tagAt s 2).busy = true ∧ s.fab.reqWait = [] ∧ loading s = none ∧
    (tagAt loadsRead 2).busy = true ∧ (tagAt loadsRead 2).load = true ∧ (loading loadsRead).isSome = true ∧
    s.fab.congEn = true ∧ s.tick.running = true ∧
    collectsElsewhere.fab.collector ≠ 0xFFFFFF ∧ collectsElsewhere.fab.collector ≠ collectsElsewhere.fab.id ∧
    collectsElsewhere.fab.congEn = true ∧ collectsElsewhere.tick.running = true ∧
    Accepts s .any (signed s { sender := 4 }) ∧ s.fab.collector = s.fab.id ∧
    (List.replicate 1344 (2 : Byte)).length = 1344 ∧ 0 < s.fab.ringSize := by
  and_intros <;> first
    | (with_reducible refine signed_accepts _ _ _ ?_ ?_ ?_) <;> decide +kernel
    | (with_reducible refine signed_ok _ _ _ ?_) <;> decide +kernel
    | decide +kernel

/-- The plan of `planState` with the device section's own digest in the common section. -/
def planPasses : State :=
  { planState with fab := { planState.fab with
      common := { planTwo.1 with digests := [Config.deviceDigest planTwo.2, 0] } } }

theorem planPasses_passes : commitRefusal planPasses (Config.commonDigest planPasses.fab.common) = none := by
  have held : progHeld planPasses = false := by decide +kernel
  have part : planPasses.fab.part = .assigned := by decide +kernel
  have rank : planPasses.fab.common.ranks.findIdx? (· == planPasses.fab.id) = some 0 := by decide +kernel
  have same : Config.deviceDigest planPasses.fab.device = nth 0 planPasses.fab.common.digests 0 := rfl
  have okC : commonOk planPasses.fab.common = true := by decide +kernel
  have okD : deviceOk planPasses.fab.device = true := by decide +kernel
  have free1 : planPasses.tick.lock = false := by decide +kernel
  have free2 : planPasses.fab.lock = false := by decide +kernel
  simp [commitRefusal, held, part, rank, same, okC, okD, free1, free2]

theorem witness_PlansAndTeardown :
    let old := signed planState { fm with mver := 2 }
    let says_ := fun (s : State) (m : MgmtOut) => ((m.mtype = mtResponse ∨ m.mtype = mtLaunchAnswer) → s.stl.state = 1) ∧
      (2 ≤ m.session → keyHeld s m.session = true)
    (mgmtAuth (.abort mm) = some (.member, mm) ∧ ({ planState with stl := {} } : State).stl.state ≠ 1) ∧
    (mgmtAuth (.regRead mm 0 8) = some (.manager, mm) ∧ planState.stl.state = 1 ∧
      authOk planState .manager mm = false) ∧
    (mgmtAuth (.regRead old 0 8) = some (.manager, old) ∧ authOk planState .manager old = true ∧ old.mver ≠ 1) ∧
    says_ planState { mtype := mtResponse, session := 3 } ∧ ¬ says_ planState { session := 7 } ∧
    ¬ says_ { planState with stl := { planState.stl with state := 3 } } { mtype := mtResponse, session := 3 } ∧
    (planState.guard.off = false ∧ planState.die.d48 = true ∧ planState.guard.queue.length ≤ 5 ∧
      planState.guard.running = none ∧ planState.guard.side = [] ∧ planState.guard.queue = []) ∧
    Accepts planState .manager (signed planState fm) ∧ PlanPart.header {} = .header {} ∧ (commitRefusal planRunning 1).isSome = true ∧
    commitRefusal planPasses (Config.commonDigest planPasses.fab.common) = none ∧ Accepts planPasses .manager (signed planPasses fm) ∧
    ((planState.fab.part = .assigned ∧ planState.tick.launched = false)) ∧
    (Accepts fencedState .manager (signed fencedState fm) ∧ fencedState.fab.part = .fenced ∧ fencedState.tick.launched = false) ∧
    (Accepts planRunning .manager (signed planRunning fm) ∧ planRunning.tick.launched = true ∧ planRunning.fab.part ≠ .unassigned) ∧
    (Accepts unassigned .manager (signed unassigned fm) ∧ unassigned.fab.part = .unassigned ∧ (linkAt unassigned 0).fence = true) ∧
    ((withPart .teardown).fab.part = .teardown ∧ guardKnown (withPart .teardown) .zeroizePlates = false ∧
      guardKnown (withPart .teardown) .zeroizeDdr = false ∧ (withPart .teardown).stl.state = 1 ∧
      ∀ p ∈ (withPart .teardown).fab.waitMgmt, 2 ≤ p.2 → keyHeld (withPart .teardown) p.2 = true) ∧
    guardKnown { withPart .teardown with guard := { running := some .zeroizeDdr } } .zeroizeDdr = true ∧
    planState.fab.part ≠ .teardown := by
  have h := planPasses_passes
  have sent : authOk planState .manager (signed planState { fm with mver := 2 }) = true :=
    signed_ok _ _ _ (by decide +kernel)
  dsimp only
  and_intros <;> first
    | with_reducible exact h
    | with_reducible exact sent
    | (with_reducible refine signed_accepts _ _ _ ?_ ?_ ?_) <;> decide +kernel
    | (with_reducible refine signed_ok _ _ _ ?_) <;> decide +kernel
    | decide +kernel

theorem witness_ManagementCommands :
    (Accepts planState .manager (signed planState fm) ∧ planState.tick.launched = false ∧ loading planState = none ∧
      planState.fab.part ≠ .teardown ∧ planState.fab.part ≠ .fenced ∧ planState.prog.phase ≠ .due) ∧
    (Accepts coordRuns .manager (signed coordRuns fm) ∧ coordRuns.tick.launched = true ∧
      (linksOf 1).any (carriesSched coordRuns) = true ∧ (linksOf 2).any (carriesSched coordRuns) = false) ∧
    (Accepts fencedState .manager (signed fencedState fm) ∧ fencedState.fab.part = .fenced) ∧
    (Accepts coordDue .manager (signed coordDue fm) ∧ coordDue.fab.part ≠ .teardown ∧ coordDue.fab.part ≠ .fenced ∧
      coordDue.tick.launched = false ∧ coordDue.prog.phase = .due) ∧
    (Accepts planRunning .manager (signed planRunning fm) ∧ planRunning.fab.part ≠ .teardown ∧ planRunning.fab.part ≠ .fenced ∧
      planRunning.tick.launched = true ∧ planRunning.tick.stopDue = true ∧ progLive planRunning = true) ∧
    ((stopping true false).tick.launched = true ∧ (stopping true false).tick.stopDue = true ∧
      progLive (stopping true false) = true ∧ (stopping true false).prog.fencing = true) ∧
    (planState.prog.fencing = false ∧ planState.prog.fencePorts = 0) ∧
    (Accepts coordDue .member (signed coordDue mm) ∧ isCoord coordDue = true ∧ coordDue.prog.abort = none ∧
      progHeld coordDue = true ∧ ¬ (coordDue.prog.phase = .due ∧ coordDue.prog.l1 ≤ coordDue.tick.gtc + 8192)) ∧
    (Accepts coordRuns .member (signed coordRuns mm) ∧ isCoord coordRuns = true ∧ coordRuns.prog.abort = none ∧
      progHeld coordRuns = true) ∧
    (Accepts memberAborts .any (signed memberAborts mm) ∧ memberAborts.fab.abortFor = some { fn := 1 } ∧
      (signed memberAborts mm).sender = memberAborts.fab.coord) ∧
    unreachable 0x10100 = true ∧ unreachable 0 = false := by
  and_intros <;> first
    | (with_reducible refine signed_accepts _ _ _ ?_ ?_ ?_) <;> decide +kernel
    | (with_reducible refine signed_ok _ _ _ ?_) <;> decide +kernel
    | decide +kernel

/-- A member whose own leaves have passed, and the other member's verdict has not come. -/
def ownPassed : State :=
  withLoad (loadState (some (op1 1 2)) true) fun l => { l with own := some stOK, verdicts := [] }
/-- The root of a weight set of one leaf. -/
def goodRoot : Digest := merkleRoot [leafHash (List.replicate 64 7)]
/-- The load of one leaf with root `r`. -/
def smallState (r : Digest) : State := loadState (some (smallOp r)) true

/-- A load of a near leaf and a far leaf, the near one in. -/
def farOp : LoadOp := { op1 1 1 with near := 2 ^ 20, far := 2 ^ 21 }
def farState : State :=
  withLoad (loadState (some farOp) true) fun l => { l with hashes := [(0, some 4)] }
/-- A range of no leaf, and one past the image. -/
def pastOp : LoadOp := { rangeOp with first := 3, leaves := 9 }

theorem witness_LoadMembersAgree :
    let ready := fun (o : LoadOp) => (loadState (some o) false).load.cur = some o ∧ 1 ≤ o.kind ∧ o.kind ≤ 3 ∧
      (loadState (some o) false).load.started = false ∧ (loadState (some o) false).load.waiting = false ∧
      ∀ k < max 1 o.set, k = 1 ∨ k ∈ (loadState (some o) false).load.readies
    let takes := fun (s : State) (o : LoadOp) (leaf : Nat) => loading s = some o ∧ leaf < leafCount o ∧
      hashesLeaf o leaf = true ∧ look none s.load.hashes leaf = none ∧ inOrder s o leaf = true ∧ ddrHeld s = false
    let near := fun (s : State) (o : LoadOp) (leaf : Nat) => leaf < nearLeaves o ∧
      (ownLeaf s o leaf = true → badWords s.host (shareAddr o leaf) (leafBytes o leaf) = []) ∧
      badWords s.memory.ddr (o.base + leaf * 2 ^ 20) (leafBytes o leaf) = []
    let after := fun (s : State) (o : LoadOp) (leaf : Nat) =>
      let sent := if ownLeaf s o leaf then memGet s.host (shareAddr o leaf) (leafBytes o leaf)
        else (leafData.bytes ++ List.replicate (leafBytes o leaf) 0).take (leafBytes o leaf)
      (forwardLinks s o leaf).foldl (sendLeaf o leaf sent) (ddrWrite s (o.base + leaf * 2 ^ 20) sent)
    let failing := { ownPassed with fab := { ownPassed.fab with tags := [(0, { load := true, result := some 5 })] } }
    let wide := { rangeOp with set := 8 }
    let last := fun (s : State) (o : LoadOp) => canon none s.load.hashes = true ∧
      s.load.hashes.length + 1 = leafCount o ∧ o.set = 1 ∧ isRange o = false ∧ o.kind = 1 ∧
      s.load.own = none ∧ s.load.verdicts = [] ∧ failedReq (after s o 0) = none
    let quiet := fun s : State => s.load.waiting = false ∧ ∀ v ∈ s.load.verdicts, v.2 = stOK
    let wide64 := { op1 1 64 with near := 30 * 2 ^ 20 }
    let meshes := withLoad (loadState (some wide64) false) fun l =>
      { l with readies := List.range 63, hashes := [(26, some 4)] }
    let early := loadState (some (op1 1 2)) false
    (Accepts (loadState none false) .member (signed (loadState none false) mm) ∧
      (loadState none false).load.cur = none) ∧
    (Accepts early .member (signed early mm) ∧ ready (op1 1 2) ∧ isRange (op1 1 2) = false ∧
      early.load.hashes = [] ∧ 0 < leafCount (op1 1 2)) ∧
    (Accepts meshes .member (signed meshes mm) ∧ meshes.load.cur = some wide64 ∧ meshes.load.started = false ∧
      meshes.load.waiting = false ∧ isRange wide64 = false ∧
      (∀ k < max 1 wide64.set, k = 63 ∨ k ∈ meshes.load.readies) ∧ 26 < nearLeaves wide64 ∧
      (look none meshes.load.hashes 26).isSome = true ∧ forwardLinks meshes wide64 26 ≠ []) ∧
    (pendingLoad early = some (op1 1 2) ∧ early.load.started = false ∧ 3 < nearLeaves (op1 1 2) ∧
      ownLeaf early (op1 1 2) 3 = false ∧ look none early.load.hashes 3 = none ∧ inOrder early (op1 1 2) 3 = true ∧
      ddrHeld early = false ∧ failedReq early = none ∧
      badWords early.memory.ddr ((op1 1 2).base + 3 * 2 ^ 20) (leafBytes (op1 1 2) 3) = []) ∧
    (ready rangeOp ∧ isRange rangeOp = true ∧ rangePast rangeOp = false ∧ 0 < rangeOp.leaves ∧
      (loadState (some rangeOp) false).load.hashes = [] ∧ (loadState (some rangeOp) false).load.reported = []) ∧
    (ready pastOp ∧ rangePast pastOp = true) ∧
    (takes ownPassed (op1 1 2) 2 ∧ near ownPassed (op1 1 2) 2 ∧ ownLeaf ownPassed (op1 1 2) 2 = true ∧
      isRange (op1 1 2) = false ∧ ownPassed.load.hashes.length + 1 < leafCount (op1 1 2)) ∧
    (takes ownPassed (op1 1 2) 3 ∧ near ownPassed (op1 1 2) 3 ∧ ownLeaf ownPassed (op1 1 2) 3 = false ∧
      failedReq (after ownPassed (op1 1 2) 3) = none ∧ (failedReq (after failing (op1 1 2) 3)).isSome = true ∧
      leafData.status = .ok ∧ ({ status := .poison } : FetchBytes).status ≠ .ok) ∧
    (takes (smallState goodRoot) (smallOp goodRoot) 0 ∧ near (smallState goodRoot) (smallOp goodRoot) 0 ∧
      last (smallState goodRoot) (smallOp goodRoot)) ∧
    (takes (smallState 5) (smallOp 5) 0 ∧ near (smallState 5) (smallOp 5) 0 ∧ last (smallState 5) (smallOp 5)) ∧
    (takes farState farOp 1 ∧ nearLeaves farOp ≤ 1 ∧ (farLeaf farState farOp 1).isSome = true ∧
      failedReq farState = none ∧ farState.load.hashes.length + 1 < leafCount farOp ∧ isRange farOp = false) ∧
    (quiet (loadState (some (op1 1 2)) false) ∧ stMalformed ≠ stOK ∧
      (loadState (some (op1 1 2)) false).load.own ≠ some stOK) ∧
    (Accepts ownPassed .member (signed ownPassed mm) ∧ ownPassed.load.cur = some (op1 1 2) ∧ quiet ownPassed ∧
      ownPassed.load.own = some stOK ∧ (op1 1 2).kind = 1 ∧
      ∀ k < max 1 (op1 1 2).set, k = 1 ∨ k = ownMember ownPassed (op1 1 2) ∨
        ∃ v ∈ ownPassed.load.verdicts, v.1 = k) ∧
    (let s := loadState (some wide) true
     Accepts s .member (signed s mm) ∧ pendingLoad s = some wide ∧ 1 ∉ s.load.reported ∧
      (∀ i < 1, look none s.load.hashes (1 + i) = none ∧ hashesLeaf wide (1 + i) = false ∧
        1 + i < nearLeaves wide) ∧
      s.load.hashes.length + 1 < leafCount wide ∧
      ∃ k < 8, k ≠ 1 ∧ k ≠ ownMember s wide ∧ k ∉ s.load.reported) ∧
    Accepts stepLive .member (signed stepLive mm) ∧ progLive stepLive = true ∧ stepLive.prog.step = true ∧
    badWords stepLive.memory.ddr (manifestAddr stepLive (manifestStep (List.replicate 32 3)))
      (min (List.replicate 32 (3 : Byte)).length (manifestSize stepLive.prog.table)) = [] := by
  dsimp only
  and_intros <;> first
    | (with_reducible refine signed_accepts _ _ _ ?_ ?_ ?_) <;> decide +kernel
    | (with_reducible refine signed_ok _ _ _ ?_) <;> decide +kernel
    | decide +kernel

theorem witness_LoadPathAndZeroing :
    let free := fun s : State => s.load.cur = none ∧ s.load.writing = false ∧ ddrHeld s = false
    let swapO := { op1 2 1 with slot := 0 }
    let swapNext := withLoad swapped fun l => { l with queue := [swapO] }
    let swapEarly := withLoad (loadState none false) fun l => { l with swap := some swapO, queue := [swapO] }
    let model := { op1 1 1 with slot := 1, base := 2 ^ 23 }
    let pair := { model with set := 2 }
    let adNext := withLoad (loadState none false) fun l =>
      { l with queue := [{ op1 3 1 with id := 6, near := 64 }], adapters := [] }
    (¬ free (loadState (some (op1 1 2)) false)) ∧
    (¬ free { loadState none false with guard := { running := some .zeroizeDdr } }) ∧
    (free (loadState none false) ∧ (loadState none false).load.queue = []) ∧
    (free swapNext ∧ swapNext.load.queue = swapO :: [] ∧ swapO.kind = 2 ∧ (swapReady swapNext).isSome = true ∧
      swapO.set ≤ 1 ∧ isRange swapO = false ∧ ((swapReady swapNext).any fun w => 0 < w.near + w.far ∧ w.set ≤ 1 ∧ isRange w = false) = true) ∧
    (free swapEarly ∧ swapEarly.load.queue = swapO :: [] ∧ swapReady swapEarly = none) ∧
    (free queuedLoad ∧ queuedLoad.load.queue = model :: [op1 1 1] ∧ model.kind = 1 ∧ 0 < model.near + model.far ∧
      modelRefusal queuedLoad model = none ∧ model.set ≤ 1 ∧ isRange model = false) ∧
    (let s := withLoad (loadState none false) fun l => { l with queue := [pair] }
     free s ∧ s.load.queue = pair :: [] ∧ modelRefusal s pair = none ∧ 1 < pair.set ∧ 1 ≠ ownMember s pair ∧
      s.load.readies.contains 1 = false) ∧
    (free adNext ∧ adNext.load.queue = { op1 3 1 with id := 6, near := 64 } :: [] ∧
      adapterRefusal adNext { op1 3 1 with id := 6, near := 64 } = none ∧ (freeAdapter adNext).isSome = true) ∧
    (waitingAd.load.cur.isSome = true ∧ waitingAd.load.waiting = true) ∧
    ((slotAt (loadState none false) 3).state = .zeroing ∧ (slotAt (loadState none false) 3).base % 2 ^ 21 = 0) ∧
    ((adapterAt (loadState none false) 4).state = .zeroing ∧
      scrubAllows (loadState none false) (adapterSize (loadState none false)) = true ∧
      (loadState none false).load.waiting = false) ∧
    (let fits := withLoad waitingAd fun l => { l with cur := l.cur.map fun o => { o with near := 64 } }
     let full := withLoad fits fun l => { l with adCount := 0 }
     (∀ s ∈ [waitingAd, fits, full], (adapterAt s 4).state = .zeroing ∧ scrubAllows s (adapterSize s) = true ∧
        s.load.waiting = true ∧
        (s.load.cur.any fun o => decide (o.kind = 3 ∧ 0 < o.near + o.far ∧ o.set ≤ 1) && !isRange o) = true) ∧
      (waitingAd.load.cur.any fun o => (adapterRefusal (setAdapter waitingAd 4 {}) o).isSome) = true ∧
      (fits.load.cur.any fun o => (adapterRefusal (setAdapter fits 4 {}) o).isNone) = true ∧
      freeAdapter (setAdapter fits 4 {}) = some 0 ∧
      (full.load.cur.any fun o => (adapterRefusal (setAdapter full 4 {}) o).isNone) = true ∧
      freeAdapter (setAdapter full 4 {}) = none) ∧
    (nextUnit stepLive (.page 1) = true ∧ scrubAllows stepLive (unitBytes stepLive (.page 1)) = true ∧
      (scrubBounded stepLive = false ∨ ∀ n, (adapterAt stepLive n).state ≠ .zeroing) ∧
      canon {} stepLive.load.adapters = true ∧ pageAddr stepLive 1 % 8 = 0 ∧
      unitBytes stepLive (.page 1) % 8 = 0 ∧
      spanHits stepLive.memory.ddr [(allocatorAddr stepLive + 8 * 1, 8)] = []) ∧
    (let s := { stepLive with srv := { stepLive.srv with dirty := [2 ^ 22] } }
     nextUnit s (.block (2 ^ 22)) = true ∧ scrubAllows s (unitBytes s (.block (2 ^ 22))) = true ∧
      scrubBounded s = false ∧ 2 ^ 22 % 8 = 0 ∧ unitBytes s (.block (2 ^ 22)) % 8 = 0) ∧
    nextUnit stepLive (.page 2) = false := by
  dsimp only
  and_intros <;> first | exact .inl (by decide +kernel) | decide +kernel

theorem witness_StepsServed :
    let clean := fun s : State => s.memory.ddr.flips = [] ∧ (openReqs s).any (reqBad s) = false ∧
      (s.srv.books.tenants.map (·.1)).any (tenantBad s) = false
    let held := boundary [(0, { state := .held, resume := .intake, prompt := [1, 2, 3], fn := 1 })]
    let lost := { lookingUp with memory := { lookingUp.memory with ddr := { flips :=
      [(((lookupSpans lookingUp (reqAt lookingUp 0)).headD (0, 0)).1 / 8, 3)] } } }
    let opens := fun (s : State) (r : Req) => boundaryReady s = true ∧ s.memory.ddr.flips = [] ∧ follows s = false ∧
      pairFollows s = false ∧ (s.srv.books.tenants.map (·.1)).any (tenantBad s) = false ∧ s.srv.books.bound = [] ∧
      s.srv.substs = [] ∧ s.srv.cancels = [] ∧ s.srv.budgets = [] ∧ s.srv.retires = [] ∧ s.load.swap = none ∧
      s.srv.books.reqs = [(0, r)] ∧ reqBad s 0 = false ∧ r.deadline = 0 ∧ r.switches = [] ∧
      r.gen = (fnAt s r.fn).gen ∧ (tenantAt s r.tenant).valid = true ∧ (tenantAt s r.tenant).refilled = s.tick.gtc
    let binds := fun (s : State) (r : Req) (pos len : Nat) => opens s r ∧ bindsNothing s = false ∧
      (slotAt s r.slot).state = .resident ∧ (fnAt s r.fn).held.length ≤ 4096 ∧
      (pos + len + pageTokens s - 1) / pageTokens s ≤ r.pages.length ∧
      s.prog.table.shapes[1]? = some { d := 1, p := 2, ticks := 20 }
    let rich := fun r : Req => admits r (9 * 2 ^ 32) false
    ((reqAt intakeState 0).state = .intake ∧ reqBad intakeState 0 = false ∧ intakeState.memory.ddr.flips = []) ∧
    ((reqAt lost 0).state = .intake ∧ reqBad lost 0 = false ∧ lost.prog.phase = .running ∧
      lost.tick.stop.valid = false ∧
      (spanHits lost.memory.ddr (lookupSpans lost (reqAt lost 0))).any (·.2) = true) ∧
    ((reqAt held 0).state = .held ∧ (reqAt held 0).resume = .intake ∧ reqBad held 0 = false) ∧
    (boundaryReady (boundary []) = true ∧ clean (boundary []) ∧ follows (boundary []) = false ∧
      pairFollows (boundary []) = false ∧ (boundary []).srv.books.reqs = [] ∧ (boundary []).srv.books.bound = []) ∧
    (let s := rich queuedReq
     let r := reqAt s 0
     binds s r 0 2 ∧ r.state = .queued ∧ r.firstStep = 0 ∧ 2 * 256 * 2 ^ 24 ≤ 9 * 2 ^ 32 ∧
      min (max 1 s.prog.table.chunk) (fillTotal r - r.prefilled) = 2 ∧ r.storeLen ≠ 0 ∧
      reservedPages s.srv.books + (contextPages s r - r.pages.length) ≤ pagesFree s.srv.books) ∧
    (let s := rich decodeReq
     let r := reqAt s 0
     binds s r 3 1 ∧ r.state = .decode ∧ r.firstStep ≠ 0 ∧ contextLen r - 1 = 3) ∧
    (let s := rich prefillReq
     let r := reqAt s 0
     binds s r 1 2 ∧ r.state = .prefill ∧ r.firstStep ≠ 0 ∧
      min (max 1 s.prog.table.chunk) (fillTotal r - r.prefilled) = 2) ∧
    (opens (admits queuedReq 0 true) (reqAt (admits queuedReq 0 true) 0) ∧
      (tenantAt (admits queuedReq 0 true) 2).reject = true) ∧
    (opens (admits queuedReq 0 false) (reqAt (admits queuedReq 0 false) 0) ∧
      (tenantAt (admits queuedReq 0 false) 2).reject = false) ∧
    (opens (admits decodeReq 0 true) (reqAt (admits decodeReq 0 true) 0) ∧ (0 : Nat) < 2 ^ 32) ∧
    boundaryReady headState = false ∧
    ((journalState true).srv.journal = dec3 :: [{ dec3 with step := 4 }] ∧
      gatesStep (journalState true) dec3.step = true) ∧
    ((journalState false).srv.journal = dec3 :: [{ dec3 with step := 4 }] ∧
      gatesStep (journalState false) dec3.step = false ∧ (journalState false).proofs.pairState ≠ 3) ∧
    (headState.proofs.due.isSome = true ∧ headState.stl.state = 1 ∧ identityUsable headState = true ∧
      headState.memory.ddr.flips = []) ∧
    (({ headState with stl := {} } : State).proofs.due.isSome = true ∧
      identityUsable { headState with stl := {} } = false) ∧
    (boundary []).srv.journal = [] ∧ (boundary []).proofs.due = none := by
  dsimp only
  and_intros <;> decide +kernel

theorem witness_PairsCompared :
    let one := pairState [(3, 7, 900)]
    (Accepts (pairState []) .pair (signed (pairState []) pm) ∧ (pairState []).proofs.pairState = 1 ∧ (pairState []).proofs.ownHeads = []) ∧
    (Accepts one .pair (signed one pm) ∧ one.proofs.pairState = 1 ∧ one.proofs.ownHeads = [(3, 7, 900)] ∧
      one.proofs.held = [] ∧ one.memory.ddr.flips = []) ∧
    (7 : Digest) ≠ 8 ∧ (one.proofs.peerHeads.any fun p => p.1 == 3) = false ∧
    one.proofs.bindSince = some 900 := by
  dsimp only
  and_intros <;> first
    | (with_reducible refine signed_accepts _ _ _ ?_ ?_ ?_) <;> decide +kernel
    | (with_reducible refine signed_ok _ _ _ ?_) <;> decide +kernel
    | decide +kernel

/-! An image that every check imagePasses: three strokes, two profiles, no route, group or region. -/

def imgHead : List Byte := imgWords.flatMap (leBytes 8)
def imgRest : List Byte :=
  List.replicate 128 0 ++ (leBytes 8 (20000 + 2000 * 2 ^ 32) ++ leBytes 8 0) ++ List.replicate 48 0 ++
    List.replicate 640 0
def imgDir : List Byte := (List.replicate 1152 coreEntry).flatten
def imgWith (d : Digest) : List Byte := imgHead ++ (digestBytes d ++ (imgRest ++ imgDir))
def goodDigest : Digest := sha256 (imgHead ++ List.replicate 32 0 ++ (imgRest ++ imgDir))
def imagePasses : State :=
  { accepted (imgWith goodDigest) with prog := { (accepted (imgWith goodDigest)).prog with imgBytes := 37824 } }
/-- The same with a length in the descriptor that the header does not give. -/
def imageCut : State := { imagePasses with prog := { imagePasses.prog with imgBytes := 5 } }

theorem head_length : imgHead.length = 96 := by decide +kernel
theorem rest_length : imgRest.length = 832 := by decide +kernel
theorem leBytes_length : ∀ n x : Nat, (leBytes n x).length = n
  | 0, _ => rfl
  | n + 1, x => by rw [leBytes, List.length_cons, leBytes_length n]

theorem leNat_leBytes : ∀ n x : Nat, leNat (leBytes n x) = x % 256 ^ n
  | 0, x => by rw [Nat.pow_zero, Nat.mod_one]; rfl
  | n + 1, x => by
    rw [leBytes, leNat, leNat_leBytes n, Nat.pow_succ', Nat.mod_mul, BitVec.toNat_ofNat]

theorem beNat_reverse : ∀ bs : List Byte, beNat bs.reverse = leNat bs
  | [] => rfl
  | b :: bs => by
    have h := beNat_reverse bs
    unfold beNat at h ⊢
    rw [List.reverse_cons, List.foldl_append, h, leNat, List.foldl_cons, List.foldl_nil]
    omega

theorem beNat_beBytes (n x : Nat) : beNat (beBytes n x) = x % 256 ^ n := by
  unfold beBytes
  rw [beNat_reverse, leNat_leBytes]

theorem digest_length (d : Digest) : (digestBytes d).length = 32 := by
  unfold digestBytes beBytes
  rw [List.length_reverse, leBytes_length]

theorem digest_back (d : Digest) : digestOfBytes (digestBytes d) = d := by
  have l : (digestBytes d).take 32 = digestBytes d := List.take_of_length_le (Nat.le_of_eq (digest_length d))
  unfold digestOfBytes
  rw [l]
  unfold digestBytes
  rw [beNat_beBytes]
  apply BitVec.eq_of_toNat_eq
  have := d.isLt
  rw [BitVec.toNat_ofNat, Nat.mod_eq_of_lt (show d.toNat < 256 ^ 32 from this), Nat.mod_eq_of_lt this]

theorem imgWith_digest (d : Digest) : imgDigest (imgWith d) = d := by
  unfold imgDigest imgWith
  rw [List.drop_left' head_length, List.take_left' (digest_length d), digest_back]

theorem imgWith_computed (d : Digest) : imgComputed (imgWith d) = goodDigest := by
  have : (imgWith d).drop 128 = imgRest ++ imgDir := by
    unfold imgWith
    rw [← List.append_assoc]
    exact List.drop_left' (by rw [List.length_append, head_length, digest_length])
  unfold imgComputed goodDigest
  rw [this]
  unfold imgWith
  rw [List.take_left' head_length]

theorem dir_entry (i : Nat) (h : i < 1152) : imgEntry (imgWith goodDigest) 2 32 i = coreEntry := by
  have off : imgOff (imgWith goodDigest) 2 = 960 := by decide +kernel
  have pre : ∀ n k : Nat, k < n → (((List.replicate n coreEntry).flatten).drop (32 * k)).take 32 = coreEntry :=
    by
    intro n
    induction n with
    | zero => intro k h; omega
    | succ n ih =>
      intro k h
      rw [List.replicate_succ, List.flatten_cons]
      have l : coreEntry.length = 32 := by decide +kernel
      cases k with
      | zero => exact List.take_left' l
      | succ k =>
        rw [show 32 * (k + 1) = 32 + 32 * k by omega, ← List.drop_drop, List.drop_left' l]
        exact ih k (by omega)
  unfold imgEntry
  rw [off, ← List.drop_drop]
  have : (imgWith goodDigest).drop 960 = imgDir := by
    unfold imgWith
    rw [← List.append_assoc, ← List.append_assoc]
    exact List.drop_left' (by simp only [List.length_append, head_length, digest_length, rest_length])
  rw [this]
  exact pre 1152 i h

theorem dir_ok : (imgCoreDir (imgWith goodDigest)).all (coreDirOk (imgWith goodDigest)) = true := by
  have n : imgCores (imgWith goodDigest) = 1152 := by decide +kernel
  have one : coreDirOk (imgWith goodDigest) coreEntry = true := by decide +kernel
  rw [List.all_eq_true]
  intro e h
  unfold imgCoreDir at h
  rw [n, List.mem_map] at h
  obtain ⟨i, hi, rfl⟩ := h
  rw [dir_entry i (List.mem_range.mp hi)]
  exact one

theorem good_form : formOk (imgWith goodDigest) = true := by
  unfold formOk
  rw [dir_ok]
  decide +kernel

theorem good_early : earlyRefusal (deriveGrade (removeCreated imagePasses)) (imgWith goodDigest) = none := by
  have r : readRefusal (deriveGrade (removeCreated imagePasses)).prog.imgRead = none := by decide +kernel
  have b : ¬ (imgBits (imgWith goodDigest) 0 31 0 ≠ 0x4D495657 ∨
      imgBytes (imgWith goodDigest) ≠ (deriveGrade (removeCreated imagePasses)).prog.imgBytes) := by decide +kernel
  have v : ¬ (imgVersion (imgWith goodDigest) ≠ 1 ∨ imgBits (imgWith goodDigest) 0 47 40 ≠ 1 ∨
      imgBits (imgWith goodDigest) 0 55 48 ≠ 0) := by decide +kernel
  have d : ¬ (imgDigest (imgWith goodDigest) ≠ imgComputed (imgWith goodDigest)) := by
    rw [imgWith_digest, imgWith_computed]; exact fun h => h rfl
  unfold earlyRefusal
  rw [r]
  dsimp only
  rw [if_neg b, if_neg v, if_neg d]

/-- Tokens of heath `h` where every code is 0. -/
theorem zero_tokens (g c h : Nat) : heathTokens g c (List.replicate 640 0) h =
    ((List.range c).map fun v => if heathIn g v = h then codeTokens 0 else 0).foldl (· + ·) 0 := by
  have e : ∀ v : Nat, nth 0 (List.replicate 640 (0 : Byte)) v = 0 := by
    intro v
    unfold nth
    rw [List.getD_eq_getElem?_getD, List.getElem?_replicate]
    split <;> rfl
  unfold heathTokens
  congr 2
  funext v
  dsimp only
  rw [e]
  split
  · split <;> rfl
  · rfl

theorem no_tokens (h n : Nat) :
    ((List.range n).map fun v => if heathIn 2 v = h then codeTokens 0 else 0).foldl (· + ·) 0 = 0 := by
  induction n with
  | zero => rfl
  | succ n ih =>
    have c : codeTokens 0 = 0 := by decide
    rw [List.range_succ, List.map_append, List.foldl_append, ih]
    simp [c]

theorem good_tokens : overDeclared (imgWith goodDigest) = none := by
  have n : imgProfiles (imgWith goodDigest) = 1 := by decide +kernel
  have e : imgEntry (imgWith goodDigest) 1 640 0 = List.replicate 640 0 := by decide +kernel
  unfold overDeclared
  rw [n, List.find?_eq_none]
  intro x hx
  rw [List.mem_flatMap] at hx
  obtain ⟨p, hp, hx⟩ := hx
  rw [List.mem_map] at hx
  obtain ⟨h, hh, rfl⟩ := hx
  have p0 : p = 0 := by have := List.mem_range.mp hp; omega
  subst p0
  dsimp only
  have gr : imgGrid (imgWith goodDigest) = 2 := by decide +kernel
  have co : imgCores (imgWith goodDigest) = 1152 := by decide +kernel
  rw [e, gr, co, zero_tokens, no_tokens]
  decide

theorem good_fits : gridOk (deriveGrade (removeCreated imagePasses)) (imgWith goodDigest) = true := by decide +kernel

theorem witness_ImagesAndHostAccess :
    let im := imgWith goodDigest
    (imagePasses.prog.phase = .accepted ∧ recordsOut imagePasses = true ∧ im = imagePasses.prog.image ∧
      earlyRefusal (deriveGrade (removeCreated imagePasses)) im = none ∧
      gridOk (deriveGrade (removeCreated imagePasses)) im = true ∧ formOk im = true ∧ overDeclared im = none ∧
      lateRefusal (deriveGrade (removeCreated imagePasses)) im = none ∧ imgDevices im = 1) ∧
    (imageCut.prog.phase = .accepted ∧ recordsOut imageCut = true ∧
      (earlyRefusal (deriveGrade (removeCreated imageCut)) imageCut.prog.image).isSome = true) ∧
    (hostState true).prog.phase ≠ .accepted ∧
    (let l : HostLink := { width := 8, rate := 3, flit256 := false }
     (l.width = 8 ∨ l.width = 16) ∧ 1 ≤ l.rate ∧ l.rate ≤ 3 ∧ l.flit256 = false) ∧
    (let l : HostLink := { width := 16, rate := 4, flit256 := false }
     l.rate = 4 ∧ l.flit256 = false) ∧
    ((hostState true).guard.captured = false ∧
      { hostState true with guard := { captured := true } }.guard.captured = true ∧
      { hostState true with guard := { captured := true } }.guard.written = false ∧
      ddrHeld { hostState true with guard := { running := some .zeroizeDdr } } = true) ∧
    (ddrHeld (hostState true) = false ∧ (hostState true).hif.hdm = true ∧ (hostState true).hif.link.mem = true ∧ (hostState true).die.d48 = true ∧
      64 + ([1, 2] : List Byte).length ≤ 2 ^ 36 ∧
      badWords (hostState true).memory.ddr (shareLo + 64) 2 = [] ∧
      correctedWords (hostState true).memory.ddr (shareLo + 64) 2 = []) := by
  refine ⟨⟨?_, ?_, rfl, good_early, good_fits, good_form, good_tokens, ?_⟩, ?_⟩
  all_goals and_intros <;> decide +kernel

/-! An image that passes where ROM key 0 is its key's digest, with the exponent 1, and a token that passes where the
part's debug key is one that makes 2 its signature: the part's own keys are open (`Config`). -/

/-- A PSS encoding with a salt of zeros. -/
def pssEncode (hash : Digest) : List Byte :=
  let h := digestBytes (sha256 (List.replicate 8 0 ++ digestBytes hash ++ List.replicate 32 0))
  let db := List.zipWith (· ^^^ ·) (List.replicate 318 0 ++ [1] ++ List.replicate 32 0) (mgf1 h 351)
  ((db.headD 0 &&& 0x7F) :: db.tail) ++ h ++ [0xBC]

def fwHead : List Byte :=
  leBytes 8 (0x46574B51 + 2 ^ 32) ++ leBytes 8 0 ++ digestBytes (sha256 []) ++ List.replicate 16 0 ++
    List.replicate 384 0xFF ++ leBytes 4 1 ++ List.replicate 60 0
def fwPasses : List Byte := fwHead ++ pssEncode (sha256 fwHead) ++ List.replicate 128 0

theorem fw_head : fwPasses.take 512 = fwHead := by decide +kernel
theorem fw_signed : pssVerify (beNat (fwModulus fwPasses)) (leNat (fwExponent fwPasses)) (fwPasses.take 512)
    ((fwPasses.drop 512).take 384) = true := by decide +kernel

theorem fw_ok (s : State) (h0 : s.lcf.revoked.getLsbD 0 = false) (hr : s.lcf.rollback = 0)
    (h : Config.romKey 0 = sha256 (fwModulus fwPasses ++ fwExponent fwPasses)) : fwOk s fwPasses = true := by
  have k : fwKey fwPasses = 0 := by decide +kernel
  have form : (decide (1024 ≤ fwPasses.length) && wordAt fwPasses 0 % 2 ^ 32 == 0x46574B51 &&
      bits (wordAt fwPasses 0) 39 32 == 1 && fwReserved fwPasses) = true := by decide +kernel
  have body : (decide (fwBodyBytes fwPasses ≤ 2 ^ 22 ∧ (fwBody fwPasses).length = fwBodyBytes fwPasses)) = true := by
    decide +kernel
  have dig : (sha256 (fwBody fwPasses) == fwDigest fwPasses) = true := by decide +kernel
  unfold fwOk
  rw [form, k, h0, h, fw_signed, body, dig, hr]
  simp

def tokHead : List Byte := leBytes 8 (1 + 3 * 2 ^ 8) ++ List.replicate 56 0
def tokPasses : List Byte := tokHead ++ beBytes 384 2

theorem tok_signed : pssVerify (2 ^ 65537 - beNat (pssEncode (sha256 tokHead))) 65537 (tokPasses.take 64)
    ((tokPasses.drop 64).take 384) = true := by decide +kernel

theorem tok_ok (h : Config.debugModulus = 2 ^ 65537 - beNat (pssEncode (sha256 tokHead))) (u : Config.uid = 0) :
    tokenOk { stileState with prog := {} } tokPasses = true := by
  have form : (tokPasses.length == 448 && bits (wordAt tokPasses 0) 7 0 == 1) = true := by decide +kernel
  have who : (wordAt tokPasses 1 == (0 : DWord).toNat &&
      leNat ((tokPasses.drop 16).take 16) == stileState.stl.nonce.toNat && !progHeld { stileState with prog := {} } &&
      tokenState { stileState with prog := {} } tokPasses) = true := by decide +kernel
  simp only [Bool.and_eq_true] at who
  unfold tokenOk
  rw [form, h, tok_signed, u]
  simpa using who

/-- The ROM waits for an image, the port trained or not. -/
def romWaits (rate : Nat) : State :=
  { romState with stl := { romWait := true }, hif := { link := { rate := rate } } }
/-- A stile with eight sessions. -/
def fullStile : State :=
  { stileState with stl := { stileState.stl with sessions := (List.range 8).map fun i => { id := i + 2 } } }

theorem witness_StileCommands :
    (romState.stl.state = 0 ∧ romState.pins.pgStl = true ∧ romState.die.d49 = true ∧ romState.stl.romWait = false ∧
      flashOk romState {} = false) ∧
    (Config.romKey 0 = sha256 (fwModulus fwPasses ++ fwExponent fwPasses) →
      flashOk romState { bytes := fwPasses } = true ∧ fwOk (romWaits 5) fwPasses = true) ∧
    ((romWaits 0).stl.romWait = true ∧ (romWaits 0).hif.link.rate = 0 ∧ (romWaits 5).stl.romWait = true ∧
      (romWaits 5).hif.link.rate ≠ 0 ∧ fwOk (romWaits 5) [] = false) ∧
    (stileState.stl.state = 1 ∧ identityUsable stileState = true ∧ stileState.stl.anchor ≠ 0 ∧
      5 = stileState.stl.anchor ∧ (liveSessions stileState).length < 8 ∧ 1 < 2 ∧ keyHeld stileState 2 = false ∧
      keyHeld stileState 9 = true ∧ stileState.stl.csr = false ∧
      { stileState with stl := { stileState.stl with csr := true } }.stl.csr = true ∧
      (∀ x ∈ liveSessions stileState, x.id ≠ 4) ∧ (∃ x ∈ liveSessions stileState, x.id = 9)) ∧
    (fullStile.stl.state = 1 ∧ fullStile.stl.anchor = 5 ∧ identityUsable fullStile = true ∧
      8 ≤ (liveSessions fullStile).length) ∧
    (identityUsable { stileState with stl := { stileState.stl with identity := false } } = false ∧
      { stileState with stl := { stileState.stl with identity := false } }.stl.state = 1) ∧
    (Config.debugModulus = 2 ^ 65537 - beNat (pssEncode (sha256 tokHead)) → Config.uid = 0 →
      tokenOk { stileState with prog := {} } tokPasses = true) ∧
    tokenOk stileState [] = false ∧
    (stileState.stl.wdtEn = true ∧ stileState.memory.ddr.flips ≠ [] ∧
      { stileState with proofs := {} }.proofs.due = none ∧
      { stileState with memory := {} }.memory.ddr.flips = []) ∧
    { stileState with lcf := { unlocked := true, until_ := 50 } }.lcf.unlocked = true ∧
    stileState.lcf.unlocked = false ∧ ChansQuiet romState ∧ ChansQuiet (romWaits 5) ∧
    { romState with lcf := { lockFuse := false } }.lcf.lockFuse = false ∧
    { romState with lcf := { lockFuse := true } }.lcf.lockFuse = true ∧
    { romState with lcf := { lockFuse := true } }.lcf.state ≠ 3 := by
  have passes := fun (s : State) (r : s.lcf.revoked.getLsbD 0 = false) (b : s.lcf.rollback = 0) => fw_ok s r b
  refine ⟨?_, fun h => ⟨?_, passes _ (by decide) (by decide) h⟩, ?_, ?_, ?_, ?_, tok_ok, ?_⟩
  rotate_left
  · unfold flashOk
    rw [passes _ (by decide) (by decide) h]
    rfl
  all_goals
    try unfold ChansQuiet
    and_intros <;> decide +kernel

theorem witness_ResetsKeepWhatTheyMust :
    let stepping := { resetState with srv :=
      { decision := some { slotWas := some (0, { state := .resident }) }, saved := some {} } }
    ({ resetState with guard := { off := true } } : State).guard.off = true ∧
    (resetState.guard.off = false ∧ resetState.guard.running ≠ some GuardOp.zeroizeDdr ∧
      resetState.srv.decision = none ∧ resetState.lcf.busy = false ∧ (slotAt resetState 0).state = .resident ∧
      (regionNo resetState.memory 0).valid = true ∧ (regionNo resetState.memory 0).kind = 0 ∧
      (slotAt resetState (regionNo resetState.memory 0).slot).state = .resident) ∧
    stepping.guard.off = false ∧ stepping.guard.running ≠ some GuardOp.zeroizeDdr ∧ stepping.srv.saved = some {} ∧
    (stepping.srv.decision.bind (·.slotWas)) = some (0, { state := .resident }) := by decide +kernel

theorem witness_BringUpReachesReady :
    let relost := { booting 2 with heaths := [(0, { on := true }), (1, { on := true }), (2, { lossLatch := 3 })] }
    ((booting 1).pwr.boot = 1 ∧ (booting 1).stl.state = 1 ∧ powerGood (booting 1) = true ∧
      (booting 1).guard.off = false ∧ (booting 1).tick.running = false) ∧
    (∀ s ∈ [booting 2, relost], bringsUp s = true ∧ (heathAt s 2).on = false ∧ switchedBefore s 2 = true) ∧
    (heathAt (booting 2) 2).lossLatch = 0 ∧ (heathAt relost 2).lossLatch ≠ 0 ∧
    ((heathAt (booting 1) 0).on = true ∧ (heathAt (booting 1) 0).state = .off ∧ testLoss (booting 1) 0 {} = none ∧
      testLoss (booting 1) 0 { hasherOk := false } = none ∧
      (testLoss (booting 1) 0 { pllLock := false }).isSome = true ∧
      testLoss (booting 1) 0 { hasherOk := false, spareOk := false } = some 6) ∧
    (bringsUp (booting 2) = true ∧ (chanAt (booting 2) 1).trained = false ∧ (chanAt (booting 2) 1).failed = false) ∧
    (∀ b, bringsUp (trained80 b) = true ∧ chansSettled (trained80 b) = true ∧ (trained80 b).memory.zeroed = false ∧
      heathsSettled (trained80 b) = b) := by decide +kernel

theorem witness_LossesTakeTheirDomains :
    let unlaunched := { powered with tick := { powered.tick with launched := false } }
    (PowerGood.rim ≠ .stl ∧ ({ powered with pins := { pgStl := false } } : State).pins.pgStl = false ∧
      powered.pins.pgStl = true) ∧
    (.hcore = PowerGood.hcore ∨ .hcore = PowerGood.hsram) ∧
    (.rim = PowerGood.rim ∨ .rim = PowerGood.mem ∨ .rim = PowerGood.sd) ∧
    ((heathAt powered 0).on = true ∧ (heathAt powered 0).state ≠ .lost ∧ progLive powered = true ∧
      (heathAt powered 0).fault.valid = false ∧ powered.tick.launched = true) ∧
    ((heathAt powered 1).on = true ∧ (heathAt powered 1).state = .lost ∧ powered.pwr.boot ≠ 2) ∧
    (progLive unlaunched = true ∧ unlaunched.tick.launched = false ∧ unlaunched.tick.stop.valid = false) := by
  decide +kernel

/-- Heath 0 with its core rail one step above its own. -/
def railHigh : State :=
  { powered with heaths := [(0, { on := true, state := .up, railVid := coreVid powered 0 {} + 1 })] }

theorem witness_TemperaturePowerAndVoltage :
    ((heathAt powered 0).on = true ∧ (heathAt powered 0).therm < 16 ∧ 0 < (heathAt powered 0).therm ∧
      16 ≤ (heathAt { powered with heaths := [(0, { on := true, therm := 16 })] } 0).therm ∧
      (heathAt { powered with heaths := [(0, { on := true })] } 0).therm = 0) ∧
    (¬ (powered.guard.off = true ∧ powered.guard.running = some GuardOp.powerOff)) ∧
    (powered.die.d48 = true ∧ powered.pwr.capEn = true ∧ powered.pwr.cap < 2 ^ 14 - 1 ∧
      ({ powered with pwr := { powered.pwr with capEn := false } } : State).pwr.capEn = false) ∧
    (avsRuns powered 0 = true ∧
      64 < ((heathAt powered 0).droops.filter fun d => decide (powered.tick.gtc ≤ d + 2 ^ 20)).length) ∧
    avsRuns railHigh 0 = true ∧ coreVid railHigh 0 (heathAt railHigh 0) < (heathAt railHigh 0).railVid ∧
    avsRuns { powered with heaths := [(0, { on := true, state := .up })] } 0 = true ∧
    (heathAt { powered with heaths := [(0, { on := true, state := .up })] } 0).railVid ≤
      coreVid { powered with heaths := [(0, { on := true, state := .up })] } 0 { on := true, state := .up } := by
  have high : coreVid railHigh 0 (heathAt railHigh 0) < (heathAt railHigh 0).railVid := Nat.lt_succ_self _
  and_intros <;> first
    | exact high
    | exact Nat.zero_le _
    | decide +kernel

/-! ### Every step -/

theorem witness_StepRunsTheFront : ({ State.reset with pending := [.nop 0, .strokeEnd 1] } : State).pending =
    .nop 0 :: [.strokeEnd 1] := rfl

theorem witness_EveryCommandAnswers : State.reset.pending = [] := rfl

/-- A device with words in error, and a scrub at the front of its queue. -/
def scrubbing : State := { memState with pending := [.patrolScrub (.mapped 64) false] }

theorem witness_StepsKeepMemoryForm : MemoryForm scrubbing ∧ ∃ t, step scrubbing = .next t :=
  ⟨by unfold MemoryForm; decide +kernel, _, rfl⟩

theorem witness_FuseChangesOnlyFall :
    ∃ t, step { fuseBusy 1 0 with pending := [.fuseCommandComplete] } = .next t := ⟨_, rfl⟩

/-! ### Ill-formed commands, one for each check, which the check refuses -/

theorem test_wf_refuses_prio : ([
  { pkey := 2 ^ 16 }, { epoch := 2 ^ 16 }, { origin := 2 ^ 24 }, { stroke := 2 ^ 32 }, { round := 256 },
  { code := 256 }, { cause := 16 }, { gtc := 2 ^ 64 }, { frac := 16 }] : List Prio).all
  (fun p => !p.wf) = true := by decide

theorem test_wf_refuses_packet : ([
  { vc := 8 }, { pkey := 2 ^ 16 }, { dst := 2 ^ 24 }, { src := 2 ^ 24 }, { slot := 4096 }, { tag := 4096 },
  { epoch := 256 }, { addr := 2 ^ 48 }] : List Packet).all (fun p => !p.wf) = true := by decide

theorem test_wf_refuses_source : ([.core 1200, .group 4096, .device (2 ^ 24), .engine 64] : List Source).all
  (fun x => !x.wf) = true := by decide

theorem test_wf_refuses_1 : ([
  .loadTile 1200, .stream 1200, .drain 1200, .accClear 1200, .vmpLoad 1200, .vmpStream 1200, .vmpDrain 1200,
  .vmpClear 1200, .vld 1200, .vst 1200, .valu 1200, .vfn 1200, .vred 1200, .vmask 1200, .vlane 1200, .mld 1200,
  .mst 1200, .nld 1200, .recst 1200, .dmaRow 1200, .dmaCol 1200, .dmaPressImage 1200, .dmaMxPack 1200,
  .dmaGather 1200, .send 1200, .recv 1200, .mcast 1200, .strokeEnd 1200, .wait 1200, .own 1200, .nop 1200,
  .loop 1200, .setb 1200, .addb 1200, .mop 1200, .halt 1200, .meshDelivery 1200 0 (.core 0),
  .meshDelivery 0 4096 (.core 0), .meshDelivery 0 0 (.engine 64), .recvComplete 1200 0, .recvComplete 0 4096,
  .dmaDescriptorComplete 1200 0, .dmaDescriptorComplete 0 2, .coreStrokeEndReached 1200, .hold 36 {},
  .hold 0 { cause := 16 }, .stop 36 {}, .stop 0 { cause := 16 }, .launchCancel 36 {}] : List Instr).all
  (fun c => !c.wf) = true := by decide +kernel

theorem test_wf_refuses_2 : ([
  .launchCancel 0 { cause := 16 }, .beacon 36 {}, .beacon 0 { cause := 16 }, .droopDetected 48,
  .patrolScrub (.mapped 4947802324992) false, .patrolScrub (.spare 8 0) false, .patrolScrub (.spare 0 (2 ^ 36)) false, .copyOutRemap 8,
  .granuleRepairComplete 4947802324992 (List.replicate 2048 0), .granuleRepairComplete 0 [],
  .registerWrite ⟨64, 0⟩ 0 0, .registerWrite ⟨0, 67108864⟩ 0 0, .poisonLogRead 67108864 0, .regionEntryWrite 64 0 0, .regionEntryWrite 0 4 0,
  .srvConfigChange 8 0, .srvConfigChange 0 4, .adapterRegionEnable 65536 0, .adapterRegionEnable 0 2048,
  .functionEnable 64 {} {}, .functionDisable 64 .flr, .flrComplete 64, .lifecycleAdvance 4 0,
  .lifecycleAdvance 0 2048, .downbin 2048, .spareCommit 2048, .revokeKey 16 0, .revokeKey 0 2048,
  .rollbackAdvance 2048 0, .rollbackAdvance 0 2048, .tickEligToggle 2048, .debugLock 2048,
  .heathControllerTimeout 48 false, .linkEnable 36, .linkDisable 36, .linkFence 36 false, .linkUnfence 36,
  .linkRediscover 36, .trainingComplete 36 0 0, .trainingComplete 0 0 65536, .trainingTimeout 36,
  .record 36 {}, .linkVerdict 36 0 0, .linkVerdict 0 3 0, .linkVerdict 0 0 16, .rediscover 36,
  .discoveryRepeat 36, .discoveryTimeout 36, .flitSlotTransmit 36,
  .flitReceive 36 0 { flit := { payload := List.replicate 224 0 } },
  .flitReceive 0 125 { flit := { payload := List.replicate 224 0 } }, .flitReceive 0 0 {}] : List Instr).all
  (fun c => !c.wf) = true := by decide +kernel

theorem test_wf_refuses_3 : ([
  .replayTimerExpiry 36, .laneLockLoss 36 0, .laneLockLoss 0 9, .retrainComplete 36 .failed,
  .portEngineFault 6, .packetForward 36 0, .packetForward 0 8, .data { vc := 8 }, .readReq { vc := 8 },
  .writeReq { vc := 8 }, .readResp { vc := 8 }, .writeAck { vc := 8 }, .window { vc := 8 }, .coll 4096 0 [],
  .requestTimeout 4096, .congMap { sender := 2 ^ 24 } [], .planWrite { sender := 2 ^ 24 } (.ranks []),
  .planCommit { sender := 2 ^ 24 } 0 0, .teardown { sender := 2 ^ 24 },
  .fencePorts { sender := 2 ^ 24 } 0 false, .fenceDevice { sender := 2 ^ 24 }, .unfence { sender := 2 ^ 24 },
  .regRead { sender := 2 ^ 24 } 0 0, .regRead {} 67108864 0, .regWrite { sender := 2 ^ 24 } 0 0 0,
  .regWrite {} 67108864 0 0, .response { sender := 2 ^ 24 } 0, .launch { sender := 2 ^ 24 } {},
  .launchAnswer { sender := 2 ^ 24 } 0, .abort { sender := 2 ^ 24 }, .ready { sender := 2 ^ 24 } {},
  .ready {} { member := 64 }, .verdict { sender := 2 ^ 24 } 0 0, .verdict {} 64 0, .drained { sender := 2 ^ 24 } 0 0,
  .drained {} 64 0, .leafHashes { sender := 2 ^ 24 } 0 0 [], .leafHashes {} 8 0 [],
  .manifest { sender := 2 ^ 24 } [], .pair { sender := 2 ^ 24 } (.head 0 0), .doorbellSnoop 64 0 0 {},
  .doorbellSnoop 0 65 0 {}, .doorbellPoll [64] [0] [0] [{}], .doorbellPoll [0] [65] [0] [{}], .doorbellPoll [0] [] [0] [{}], .doorbellPoll [0] [0] [] [{}],
  .doorbellPoll [0] [0] [0] [], .submitRequest 64 0 0 {} {} {},
  .submitRequest 0 64 0 {} {} {}, .cancel 64 0 0, .cancel 0 64 0, .loadModel 64 0 0 {}] : List Instr).all
  (fun c => !c.wf) = true := by decide +kernel

theorem test_wf_refuses_4 : ([
  .loadModel 0 64 0 {}, .swapModel 64 0 0 {}, .swapModel 0 64 0 {}, .loadAdapter 64 0 0 {},
  .loadAdapter 0 64 0 {}, .retireAdapter 64 0 0, .retireAdapter 0 64 0, .setBudget 64 0 0, .setBudget 0 64 0,
  .launchProgram 64 0 0 {} {}, .launchProgram 0 64 0 {} {}, .abortProgram 64 0 0, .abortProgram 0 64 0,
  .query 64 0 {}, .query 0 64 {}, .slotZeroingComplete 8, .adapterZeroingComplete 1024, .intakeComplete 65536,
  .completionRingRoom 64 0 {}, .completionRingRoom 0 64 {}, .eventLost 64 {}, .interruptCoalesceTimeout 64 0,
  .interruptCoalesceTimeout 0 129, .msixUnmask 64 0, .msixUnmask 0 2048,
  .hostSharedAccess false 68719476736 [], .spdmRequest 256 {}, .keyExchange 4294967296 0 false,
  .getMeasurements ⟨256, false⟩, .heathSwitchOn 48, .powerGoodTimeout 48, .heathSelfTestDone 48 {},
  .channelTrainingDone 80 false, .heathLoss 48 1, .heathLoss 0 0, .heathLoss 0 7, .rimDieLoss 12,
  .thermalLevelRise 48 0, .thermalLevelRise 0 1024, .thermalLevelFall 48 0, .thermalLevelFall 0 1024,
  .thermalTrip 60 0, .thermalTrip 0 1024, .powerCapInterval { watts := 16384 }, .avsVidRaise 48, .avsVidLower 48,
  .avsFault 48, .hostPortLinkTrained { rate := 8 }, .hostPortLinkTrained { width := 32 }] : List Instr).all
  (fun c => !c.wf) = true := by decide +kernel

theorem test_wf_refuses_5 : ([
  .abort { session := 2 ^ 32 }, .abort { mver := 256 }, .abort { mtype := 256 }, .ready {} { base := 2 ^ 48 },
  .spdmRequest 0 { session := 2 ^ 32 }, .stileWatchdogExpiry [(2 ^ 19, 1)], .powerCapInterval { amps := [4096] },
  .mctpPowerCap { addr := 128 }] : List Instr).all (fun c => !c.wf) = true := by decide +kernel

/-- Commands within their ranges pass. -/
theorem test_wf_accepts : ([.nop 1199, .record 35 {}, .heathSwitchOn 47, .flrComplete 63, .data {}, .readyTimeout,
  .registerWrite ⟨0, 67108860⟩ 4 0, .meshDelivery 0 4095 (.device 9), .downbin 2047, .loadModel 63 63 0 {},
  .flitReceive 0 124 { flit := { payload := List.replicate 224 0 } },
  .granuleRepairComplete 0 (List.replicate 2048 0)] : List Instr).all (·.wf) = true := by decide +kernel

/-! ### The manual's worked examples

Each test's expected values are those that the named section of `spec/` works out. -/

/-- 01, "mapping one virtual core": heath 13 of a grid A image with cores 4 and 19 disabled. -/
def mapA (grid : Nat) : State :=
  { State.reset with prog := { grid := grid }, heaths := [(13, { on := true, map := 2 ^ 4 + 2 ^ 19 })] }

theorem test_core_of_grid_a : coreOfXY (mapA 1) 27 7 = some 307 ∧ heathOf (mapA 1) 307 = 13 ∧
    physOf (mapA 1) 307 = some 13 := by decide
theorem test_core_of_grid_b : coreOfXY (mapA 2) 22 8 = some 278 ∧ heathOf (mapA 2) 278 = 13 ∧
    physOf (mapA 2) 278 = some 11 := by decide

/-- 02, "one cell in the FP8 class": 2^24 + 1 rounds to even and sets NX. -/
theorem test_add_rounds_to_even : fpAdd 0 false 0 0x4B800000#32 0x3F800000#32 = (0x4B800000#32, fNX) := by
  decide +kernel

/-- 02, "an MXFP8 block in E4M3": 1,000, 3.3 and 0.001 and 29 zeros. -/
theorem test_mx_block : mxBlock 3 0 (List.replicate 32 0)
      ([0x447A0000#32, 0x40533333#32, 0x3A83126F#32].map fp ++ List.replicate 29 (fp 0#32)) =
    (0x80, [0x7E, 0x3D] ++ List.replicate 30 0, fOF ||| fUF ||| fNX) := by decide +kernel

/-- 03, "a three-column FP8 image": element 300 of column 2, and the MX scale of its group 1. -/
theorem test_image_offset : slotOffset 0 512 64 2 4 + 44 = 3372 ∧ slotOffset 0 576 72 2 4 + 64 + 1 = 3809 := by
  decide

/-- 05, "locating an address". -/
theorem test_channel_of_address : chanOf 0x000200123400 = 44 ∧ chanOff 0x000200123400 = 0x71CB400 ∧
    physChan State.reset.memory 44 = 48 ∧ chanOf 0x000200123800 = 45 := by decide

/-- 05, "the image of one K tile": the descriptor's fields, and that PRESS_IMAGE takes it. -/
def kTile : DmaOp :=
  { word := 0x1A00000000000000, pred := BitVec.allOnes 64
    desc := [0x9C0103, 0x400000000000, 0, 0x38FF, 0x400, 0x400400000000, 0x20, 0] }
theorem test_dma_descriptor : dKind kTile = 3 ∧ dDsp kTile = true ∧ dSsp kTile = false ∧ dFmt kTile = 0x13 ∧
    bits (dmaWord kTile 3) 10 0 + 1 = 256 ∧ bits (dmaWord kTile 3) 13 11 + 1 = 8 ∧ descOk kTile = true :=
      by decide

/-- 04, "two strokes on one core": instruction 7 stages frames 68 to 71 for owner code 2 (`staged` holds the
code plus 1). -/
theorem test_own_word : (match exec (.own 0) (at0 0x2B011001A0000000#64) with
    | .next t => (coreAt t 0).staged
    | _ => []) = [(68, 2 + 1), (69, 2 + 1), (70, 2 + 1), (71, 2 + 1)] := by decide +kernel
/-- 04, the same: instruction 0 loads four arrays of MXFP8 tiles of 8 segments. -/
theorem test_load_tile_word : bits 0x001F3E2460000000 52 49 = 15 ∧ bits 0x001F3E2460000000 48 44 = 0x13 ∧
    opOf 0x001F3E2460000000 = 0 ∧ classOf 0x13 = some .fp8 := by decide

/-- 06, "one round of holds". -/
def holdRound : State :=
  { State.reset with tick := { launch := 7340000000, budget := 120000, runQuant := 16, lead := 1428 } }
theorem test_hold_lead : holdLead 1148 12 = 1428 ∧ holdLead 900 12 = 1200 ∧ holdLead 0 12 = 1200 := by decide
theorem test_hold_points : holdPointAt holdRound 1 = 7340118572 ∧ decisionAt holdRound 0 = 7340119744 ∧
    holdPointAt holdRound 2 = 7340122668 ∧ decisionAt holdRound 1 = 7340123840 ∧
    launchAfter holdRound 1 = 7340124096 := by decide
/-- 06, "the hold limit": Q is raised to 1,536, and round 256 lies 450,252 ticks after the launch. -/
theorem test_hold_limit : 256 * quantFor 4 1428 = 1536 ∧
    holdPointAt { State.reset with tick := { launch := 0, budget := 60000, runQuant := 6, lead := 1428 } } 256 =
      450252 := by
  decide
/-- 06, "holdover after an upstream link fails". -/
def holdsOver : State := { State.reset with tick := { sync := .holdover, depth := 4,
                                                      lastBeacon := 2000000000 } }
theorem test_holdover_bound : lockedBound holdsOver = 6 ∧ syncBound holdsOver 2016777216 = some 7 ∧
    syncBound holdsOver 2100663296 = some 12 ∧ syncOk holdsOver 2117440511 12 = true ∧
    syncBound holdsOver 2117440512 = some 13 ∧ syncOk holdsOver 2117440512 12 = false := by decide

/-- 07, "a heath under one profile"; a code of 0 draws nothing. -/
theorem test_draw_codes : codeTokens 0 = 0 ∧ codeTokens 8 = 2 ∧ codeTokens 0xA = 10 ∧ codeTokens 0xE = 13 ∧ 23 * codeTokens 0xA + 2 * codeTokens 0xE =
  256 := by
  decide

/-- 08, "one request through a surveillance step program". -/
def surveillance : State :=
  { State.reset with
    prog := { table := { chunk := 512, shapes := [{ ticks := 40000 }, { d := 256, p := 512, ticks := 9600000 },
                                                  { d := 1024, p := 1024, a := 2, ticks := 16000000 }] } }
    srv := { books := { tenants := [(17, { valid := true, cost := 0x40 })] } } }
def prompt1300 (done : Nat) : Req :=
  { state := .prefill, tenant := 17, prompt := List.replicate 1300 1, prefilled := done, arrival := 5000000000
    ttft := 200000000 }
theorem test_chunks_and_charges : chunkLen surveillance (prompt1300 0) = 512 ∧
    chunkLen surveillance (prompt1300 1024) = 276 ∧ chargeOf surveillance (prompt1300 0) = 128 * 2 ^ 32 ∧
    chargeOf surveillance (prompt1300 1024) = 69 * 2 ^ 32 := by decide +kernel
theorem test_slack : slackOf surveillance 5003995000 (prompt1300 0) = 148005000 := by decide +kernel
theorem test_manifest_size : manifestBytes 512 { d := 1024, p := 1024, a := 2 } = 33472 ∧
    manifestSize surveillance.prog.table = 65536 := by decide

/-- 11, "two crossed X cables": device (0, 5, 2, 3), ports X1 and X2. -/
theorem test_wired_peers : wiredPeer (5 * 2 ^ 12 + 2 * 2 ^ 6 + 3) 1 = 5 * 2 ^ 12 + 4 * 2 ^ 6 + 3 ∧
  6 - axisIndex 1 = 5 ∧
    wiredPeer (5 * 2 ^ 12 + 2 * 2 ^ 6 + 3) 2 = 5 * 2 ^ 12 + 5 * 2 ^ 6 + 3 ∧ 6 - axisIndex 2 = 4 := by decide
/-- 11, "a NAK and a duplicate": a delay of 96 ticks gives a replay timer of 320. -/
theorem test_replay_timer : (match exec (.trainingComplete 0 0 (16 * 96)) (linkState (busyLink .training) false)
    with
    | .next t => (linkAt t 0).timer
    | _ => 0) = 320 := by decide +kernel
/-- R358: the check value of CRC-64 of ECMA-182 with both inversions, over the digits 1 to 9. -/
theorem test_crc64 : crc64 ((List.range 9).map fun k => BitVec.ofNat 8 (0x31 + k)) = 0x62EC59E3F1A4F00A#64 := by
  decide +kernel

/-- 13, "one doorbell, four requests, and a late fifth": a descriptor's word 0 and its EVENT's, PHASE apart. -/
theorem test_descriptor_word : descType 0x0000001100030101#512 = 1 ∧ descCring 0x0000001100030101#512 = 3 ∧
    subTenant 0x0000001100030101#512 = 17 ∧ compWord0 ctEvent stOK 3 0x2A17 1 + 0x1000000#64 =
      0x012A170301000501#64 := by
  decide +kernel

/-- 16, "a heath status word and a locked link write". By R488 heath 29's window begins at
0x0010_0000 + 29 × 0x0001_0000 = 0x002D_0000; the example's own sum, 0x001D_000C, is that of heath 13. -/
def fabLocked : State := { State.reset with fab := { lock := true } }
theorem test_heath_status : (readReg State.reset 0x2D000C 4).2 = 0x000C0003 := by decide +kernel
theorem test_locked_link_write : (readReg State.reset 0x51440 4).2 = 0x00070240 ∧
    (match exec (.registerWrite ⟨0, 0x51440⟩ 4 0x00070261#64) fabLocked with
      | .next t => (readReg t 0x51440 4).2
      | _ => 0) = 0x00070241 := by decide +kernel
/-- R494: every version register of generation 1 reads 0x0000_0100. -/
theorem test_versions : (readReg State.reset 0x20000 4).2 = 0x100 ∧ (readReg State.reset 0x30000 4).2 = 0x100 ∧
    (readReg State.reset 0x100010 4).2 = 0x100 := by decide +kernel

/-- FIPS 180-4's example: SHA-256 of "abc" (R325). -/
theorem test_sha256 : sha256 [0x61, 0x62, 0x63] =
    0xBA7816BF8F01CFEA414140DE5DAE2223B00361A396177A9CB410FF61F20015AD#256 := by decide +kernel

/-- No row of the command table has bits, so no word spells a command. -/
theorem test_no_word_spells : decodeTableWord 64 0x001F3E2460000000 = none := rfl

end Sys2Proof.Tests
end

/-! ## Heath windows (O29)

A 4-byte read of a register delivers the register's word; a heath window's words are those of its heath. -/

namespace Sys2Proof.Proofs.HeathWindow

open Sys2Proof Sys2Proof.Machine

/-! ### Word reads of BAR0 -/

theorem sizeIn_word {n off : Nat} (hal : off % 4 = 0) (hin : off + 4 ≤ n) : sizeIn n off 4 = true := by
  simp [sizeIn, hal, hin]

theorem covers_word_ne {off w : Nat} (hal : off % 4 = 0) (hw : w % 4 = 0) (hne : off ≠ w) :
    covers off 4 w = false := by
  have hapart : ¬ (off < w + 4 ∧ w < off + 4) := by omega
  simp only [covers, hapart, decide_false, Bool.and_false]

theorem readValue_word (s : State) {off : Nat} (hal : off % 4 = 0) (hin : off + 4 ≤ 2 ^ 26) :
    readValue s off 4 = regWord s off % 2 ^ 32 := by
  have hbase : off / 4 * 4 = off := by omega
  have hsize : sizeIn (2 ^ 26) off 4 = true := sizeIn_word hal hin
  simp only [readValue, readIn, hsize, hbase, hal, Bool.not_true, Bool.false_eq_true, if_false, Nat.reduceEqDiff,
    Nat.mul_zero, Nat.pow_zero, Nat.div_one, Nat.reduceMul]

/-- Of the two reads with an effect (R492), only that of GTC_LO acts before the value is taken. -/
theorem readReg_word (s : State) {off : Nat} (hal : off % 4 = 0) (hin : off + 4 ≤ 2 ^ 26)
    (hgtc : off ≠ tckGtcLo) : (readReg s off 4).2 = regWord s off % 2 ^ 32 := by
  have hcov : covers off 4 tckGtcLo = false := covers_word_ne hal (by decide) hgtc
  simp only [readReg, hcov, Bool.false_eq_true, if_false, readValue_word s hal hin]

/-! ### The words of a heath window -/

/-- A heath's block lies past the nine numbered ones, so its word comes from `regWord`'s last case (R11, R488). -/
theorem regWord_heath (s : State) {h o : Nat} (hh : h < 48) (ho : o < 0x10000) :
    regWord s (0x100000 + 0x10000 * h + o) = heathWord s h o := by
  have hblock : (0x100000 + 0x10000 * h + o) / 0x10000 = h + 0x10 := by omega
  have hoff : (0x100000 + 0x10000 * h + o) % 0x10000 = o := by omega
  have hrange : 0x10 ≤ h + 0x10 ∧ h + 0x10 < 0x40 := by omega
  unfold regWord
  rw [hblock, hoff]
  exact (if_pos hrange).trans (by rw [Nat.add_sub_cancel])

theorem readReg_heath (s : State) {h o : Nat} (hh : h < 48) (ho : o < 0x10000) (hal : o % 4 = 0) :
    (readReg s (0x100000 + 0x10000 * h + o) 4).2 = heathWord s h o % 2 ^ 32 := by
  have hgtc : 0x100000 + 0x10000 * h + o ≠ tckGtcLo := by simp only [tckGtcLo]; omega
  rw [readReg_word s (by omega) (by omega) hgtc, regWord_heath s hh ho]

theorem heathWord_status (s : State) (h : Nat) : heathWord s h 0xC = heathStatus h (heathAt s h) := rfl

theorem heathWord_coreMap_of_off {s : State} {h : Nat} (hoff : (heathAt s h).state = .off) :
    heathWord s h 0x8 = 0 := by
  simp [heathWord, hoff]

/-! ### HTH_STATUS -/

/-- HOME_MR in the form of R499: by row, then by pair of columns. -/
theorem homeMr_eq (h : Nat) : homeMr h = (if h / 8 ≤ 2 then 0 else 4) + h % 8 / 2 := by
  unfold homeMr
  split <;> split <;> omega

theorem homeMr_lt (h : Nat) : homeMr h < 8 := by
  unfold homeMr
  split <;> omega

theorem heathCode_lt (c : HeathState) : heathCode c < 4 := by
  cases c <;> decide

theorem fld_homeMr (h : Nat) : fld (homeMr h) 3 17 = homeMr h * 2 ^ 17 := by
  have hmod : homeMr h % 2 ^ 3 = homeMr h := Nat.mod_eq_of_lt (homeMr_lt h)
  rw [fld, hmod]

theorem heathStatus_of_off {h : Nat} {x : Heath} (hoff : x.state = .off) :
    heathStatus h x = 3 + homeMr h * 2 ^ 17 := by
  simp [heathStatus, hoff, heathCode, fld_homeMr]

/-- Whatever STATE is, the fields below HOME_MR fill less than its lowest bit. -/
theorem heathStatus_split (h : Nat) (x : Heath) :
    ∃ low, low < 2 ^ 17 ∧ heathStatus h x = low + homeMr h * 2 ^ 17 := by
  by_cases hoff : x.state = .off
  · exact ⟨3, by decide, heathStatus_of_off hoff⟩
  · refine ⟨heathCode x.state + fld x.lossCause 8 8 + fld (b2n x.subst) 1 16, ?_, ?_⟩
    · have hcode := heathCode_lt x.state
      simp only [fld]
      omega
    · simp only [heathStatus, hoff, if_false, fld_homeMr]
      omega

theorem heathStatus_lt (h : Nat) (x : Heath) : heathStatus h x < 2 ^ 32 := by
  obtain ⟨low, hlow, hst⟩ := heathStatus_split h x
  have hmr := homeMr_lt h
  omega

theorem bits_heathStatus_homeMr (h : Nat) (x : Heath) : bits (heathStatus h x) 19 17 = homeMr h := by
  obtain ⟨low, hlow, hst⟩ := heathStatus_split h x
  have hmr := homeMr_lt h
  rw [bits, Nat.shiftRight_eq_div_pow]
  omega

theorem readReg_heathStatus (s : State) {h : Nat} (hh : h < 48) :
    (readReg s (0x100000 + 0x10000 * h + 0xC) 4).2 = heathStatus h (heathAt s h) := by
  rw [readReg_heath s hh (by decide) (by decide), heathWord_status, Nat.mod_eq_of_lt (heathStatus_lt h _)]

theorem readReg_heathCoreMap_of_off {s : State} {h : Nat} (hh : h < 48) (hoff : (heathAt s h).state = .off) :
    (readReg s (0x100000 + 0x10000 * h + 0x8) 4).2 = 0 := by
  rw [readReg_heath s hh (by decide) (by decide), heathWord_coreMap_of_off hoff, Nat.zero_mod]

/-- Settles O29: HOME_MR stands above every other field of HTH_STATUS, and in OFF only STATE is beside it. -/
theorem heathOffReadsAsReset : Obligations.HeathOffReadsAsReset := by
  intro s h hh home
  have hhome : homeMr h = home := homeMr_eq h
  rw [readReg_heathStatus s hh, ← hhome]
  exact ⟨bits_heathStatus_homeMr h _, fun hoff =>
    ⟨heathStatus_of_off hoff, readReg_heathCoreMap_of_off hh hoff⟩⟩

end Sys2Proof.Proofs.HeathWindow

/-! ## Accesses of BAR0 (O26, O27)

A read of BAR0 delivers bytes of words, a write changes whole words, and two words change as they are read. What holds
of the sizes and of the two reads is said here once for `readReg` and `writeReg`. -/

namespace Sys2Proof.Proofs.BarAccess

open Sys2Proof Sys2Proof.Machine Sys2Proof.Proofs.HeathWindow

/-! ### Sizes and alignment (R490) -/

theorem sizeIn_of_refused (n : Nat) {off size : Nat}
    (h : (size ≠ 1 ∧ size ≠ 2 ∧ size ≠ 4 ∧ size ≠ 8) ∨ off % size ≠ 0) : sizeIn n off size = false := by
  rcases h with ⟨h1, h2, h4, h8⟩ | hal
  · simp [sizeIn, h1, h2, h4, h8]
  · simp [sizeIn, hal]

theorem sizeIn_of_aligned {n off size : Nat} (hs : size = 1 ∨ size = 2 ∨ size = 4 ∨ size = 8)
    (hal : off % size = 0) (hin : off + size ≤ n) : sizeIn n off size = true := by
  simp [sizeIn, hs, hal, hin, or_assoc]

/-- An aligned access of 1 or 2 B lies within one register. -/
theorem short_within_word {off size : Nat} (hs : size = 1 ∨ size = 2) (hal : off % size = 0) :
    off % 4 + size ≤ 4 := by
  rcases hs with rfl | rfl <;> omega

/-- BAR0 ends at the end of a block of 8 B, so no accepted access runs past it. -/
theorem short_inside {off size : Nat} (hs : size = 1 ∨ size = 2) (hal : off % size = 0) (hin : off < 2 ^ 26) :
    off + size ≤ 2 ^ 26 := by
  have hword := short_within_word hs hal
  omega

theorem sizeIn_double {off : Nat} (hal : off % 8 = 0) (hin : off < 2 ^ 26) : sizeIn (2 ^ 26) off 8 = true :=
  sizeIn_of_aligned (.inr (.inr (.inr rfl))) hal (by omega)

theorem sizeIn_short {off size : Nat} (hs : size = 1 ∨ size = 2) (hal : off % size = 0) (hin : off < 2 ^ 26) :
    sizeIn (2 ^ 26) off size = true :=
  sizeIn_of_aligned (by omega) hal (short_inside hs hal hin)

/-! ### Which word a read covers -/

theorem covers_of_refused {off size : Nat} (w : Nat) (h : sizeIn (2 ^ 26) off size = false) :
    covers off size w = false := by
  rw [covers, sizeOk, h, Bool.false_and]

theorem covers_eq_false_of_apart {off size w : Nat} (h : off + size ≤ w ∨ w + 4 ≤ off) :
    covers off size w = false := by
  have hapart : ¬ (off < w + 4 ∧ w < off + size) := by omega
  rw [covers, decide_eq_false hapart, Bool.and_false]

theorem covers_eq_true {off size w : Nat} (hs : size = 1 ∨ size = 2 ∨ size = 4 ∨ size = 8) (hal : off % size = 0)
    (hin : off + size ≤ 2 ^ 26) (hlo : off < w + 4) (hhi : w < off + size) : covers off size w = true := by
  rw [covers, sizeOk, sizeIn_of_aligned hs hal hin, decide_eq_true ⟨hlo, hhi⟩, Bool.and_self]

/-- A short read covers a byte of the register at its address and of no other. -/
theorem covers_short {off size w : Nat} (hs : size = 1 ∨ size = 2) (hal : off % size = 0) (hin : off < 2 ^ 26)
    (hw : w % 4 = 0) : covers off size w = covers (off / 4 * 4) 4 w := by
  have hword := short_within_word hs hal
  by_cases hat : off / 4 * 4 = w
  · rw [covers_eq_true (by omega) hal (short_inside hs hal hin) (by omega) (by omega),
      covers_eq_true (by omega) (by omega) (by omega) (by omega) (by omega)]
  · rw [covers_eq_false_of_apart (by omega), covers_eq_false_of_apart (by omega)]

/-! ### The value of a read -/

theorem readValue_of_refused (s : State) {off size : Nat} (h : sizeIn (2 ^ 26) off size = false) :
    readValue s off size = 0 := by
  simp only [readValue, readIn, h, Bool.not_false, if_true]

/-- Bytes `i` to `i + n - 1` of a number are those of its low word, while they end within that word. -/
theorem bytes_of_word (x : Nat) {i n : Nat} (h : i + n ≤ 4) :
    x / 2 ^ (8 * i) % 2 ^ (8 * n) = x % 2 ^ 32 / 2 ^ (8 * i) % 2 ^ (8 * n) := by
  have hsplit : 2 ^ 32 = 2 ^ (8 * i) * 2 ^ (32 - 8 * i) := by rw [← Nat.pow_add]; congr 1; omega
  have hdvd : 2 ^ (8 * n) ∣ 2 ^ (32 - 8 * i) := Nat.pow_dvd_pow 2 (by omega)
  rw [hsplit, Nat.mod_mul_right_div_self, Nat.mod_mod_of_dvd _ hdvd]

theorem readValue_short (s : State) {off size : Nat} (hs : size = 1 ∨ size = 2) (hal : off % size = 0)
    (hin : off < 2 ^ 26) :
    readValue s off size = readValue s (off / 4 * 4) 4 / 2 ^ (8 * (off % 4)) % 2 ^ (8 * size) := by
  have hne : size ≠ 8 := by omega
  rw [readValue_word s (by omega) (by omega), ← bytes_of_word _ (short_within_word hs hal)]
  simp only [readValue, readIn, sizeIn_short hs hal hin, hne, Bool.not_true, Bool.false_eq_true, if_false]

theorem readValue_double (s : State) {off : Nat} (hal : off % 8 = 0) (hin : off < 2 ^ 26) :
    readValue s off 8 = readValue s off 4 + readValue s (off + 4) 4 * 2 ^ 32 := by
  rw [readValue_word s (by omega) (by omega), readValue_word s (by omega) (by omega)]
  simp only [readValue, readIn, sizeIn_double hal hin, Bool.not_true, Bool.false_eq_true, if_false, if_true]

theorem readValue_word_lt (s : State) {off : Nat} (hal : off % 4 = 0) (hin : off + 4 ≤ 2 ^ 26) :
    readValue s off 4 < 2 ^ 32 := by
  rw [readValue_word s hal hin]
  exact Nat.mod_lt _ (by decide)

theorem readValue_double_lt (s : State) {off : Nat} (hal : off % 8 = 0) (hin : off < 2 ^ 26) :
    readValue s off 8 < 2 ^ 64 := by
  have hlow := readValue_word_lt s (off := off) (by omega) (by omega)
  have hhigh := readValue_word_lt s (off := off + 4) (by omega) (by omega)
  rw [readValue_double s hal hin]
  omega

/-! ### The two reads with an effect (R492) -/

/-- The high word of the GTC latched (R178). -/
def latchGtcHi (s : State) : State := { s with tick := { s.tick with gtcHi := s.tick.gtc / 2 ^ 32 % 2 ^ 32 } }

/-- The value is that of the state after the latch of R178 and before the removal of R171. -/
theorem readReg_value (s : State) (off size : Nat) :
    (readReg s off size).2 = readValue (if covers off size tckGtcLo then latchGtcHi s else s) off size := rfl

theorem readReg_value_of_uncovered {s : State} {off size : Nat} (hgtc : covers off size tckGtcLo = false) :
    (readReg s off size).2 = readValue s off size := by
  rw [readReg_value, hgtc, if_neg Bool.false_ne_true]

theorem readReg_of_covers_gtcLo {s : State} {off size : Nat} (hgtc : covers off size tckGtcLo = true)
    (hpoison : covers off size memPoisonHi = false) :
    (readReg s off size).1 = { latchGtcHi s with readData := dw (readValue (latchGtcHi s) off size) } := by
  simp only [readReg, hgtc, hpoison, if_true, Bool.false_eq_true, if_false]
  rfl

theorem readReg_of_covers_poisonHi {s : State} {off size : Nat} (hgtc : covers off size tckGtcLo = false)
    (hpoison : covers off size memPoisonHi = true) :
    (readReg s off size).1 =
      { s with memory := popPoison s.memory, readData := dw (readValue s off size) } := by
  simp only [readReg, hgtc, hpoison, if_true, Bool.false_eq_true, if_false]

theorem readReg_of_uncovered {s : State} {off size : Nat} (hgtc : covers off size tckGtcLo = false)
    (hpoison : covers off size memPoisonHi = false) :
    (readReg s off size).1 = { s with readData := dw (readValue s off size) } := by
  simp only [readReg, hgtc, hpoison, Bool.false_eq_true, if_false]

theorem toNat_dw {n : Nat} (h : n < 2 ^ 64) : (dw n).toNat = n := by
  rw [dw, BitVec.toNat_ofNat, Nat.mod_eq_of_lt h]

/-! ### The GTC -/

theorem readValue_gtcLo (s : State) : readValue s tckGtcLo 4 = s.tick.gtc % 2 ^ 32 :=
  (readValue_word s (by decide) (by decide)).trans (Nat.mod_mod _ _)

theorem readValue_gtcHi (s : State) : readValue s (tckGtcLo + 4) 4 = s.tick.gtcHi % 2 ^ 32 :=
  (readValue_word s (by decide) (by decide)).trans (Nat.mod_mod _ _)

/-- With the high word latched just before, both words are of one count (R492). -/
theorem readValue_gtc_latched (s : State) : readValue (latchGtcHi s) tckGtcLo 8 = s.tick.gtc % 2 ^ 64 := by
  rw [readValue_double _ (by decide) (by decide), readValue_gtcLo, readValue_gtcHi]
  simp only [latchGtcHi]
  omega

theorem covers_gtcLo {size : Nat} (hs : size = 1 ∨ size = 2 ∨ size = 4 ∨ size = 8) :
    covers tckGtcLo size tckGtcLo = true := by
  rcases hs with rfl | rfl | rfl | rfl <;> decide

theorem exec_gtcLoRead_eq (s : State) {size : Nat} (hs : size = 1 ∨ size = 2 ∨ size = 4 ∨ size = 8) :
    exec (.gtcLoRead size) s =
      .next { latchGtcHi s with readData := dw (readValue (latchGtcHi s) tckGtcLo size) } := by
  have hpoison : covers tckGtcLo size memPoisonHi = false :=
    covers_eq_false_of_apart (.inr (by decide))
  rw [exec_gtcLoRead, execGtcLoRead, readReg_of_covers_gtcLo (covers_gtcLo hs) hpoison]

/-! ### The poison log -/

theorem popPoison_eq (m : Memory) :
    popPoison m = { m with
      poison := m.poison.drop 1
      overflow := m.overflow && decide (m.poison.drop 1 ≠ []) } := by
  have hbne : (m.poison.drop 1 != []) = decide (m.poison.drop 1 ≠ []) := by
    cases m.poison.drop 1 <;> rfl
  rw [popPoison, hbne]

theorem exec_poisonLogRead_of_covers {s : State} {off size : Nat} (hgtc : covers off size tckGtcLo = false)
    (hpoison : covers off size memPoisonHi = true) :
    exec (.poisonLogRead off size) s =
      .next { s with memory := popPoison s.memory, readData := dw (readValue s off size) } := by
  rw [exec_poisonLogRead, execPoisonLogRead, readReg_of_covers_poisonHi hgtc hpoison]

theorem exec_poisonLogRead_of_uncovered {s : State} {off size : Nat} (hgtc : covers off size tckGtcLo = false)
    (hpoison : covers off size memPoisonHi = false) :
    exec (.poisonLogRead off size) s = .next { s with readData := dw (readValue s off size) } := by
  rw [exec_poisonLogRead, execPoisonLogRead, readReg_of_uncovered hgtc hpoison]

/-- The one aligned 8-byte read that covers MEM_POISON_HI delivers the entry whole: LO, then HI (R492). -/
theorem readValue_poison_entry (s : State) : (dw (readValue s 0x30040 8)).toNat =
    (readReg s 0x30040 4).2 + (readReg s 0x30044 4).2 * 2 ^ 32 := by
  rw [toNat_dw (readValue_double_lt s (by decide) (by decide)), readValue_double s (by decide) (by decide),
    readReg_value_of_uncovered (by decide), readReg_value_of_uncovered (by decide)]

/-! ### Writes -/

theorem exec_registerWrite_pf0 (s : State) (off size : Nat) (v : DWord) :
    exec (.registerWrite ⟨0, off⟩ size v) s = .next (writeReg s off size v.toNat) := rfl

theorem writeReg_of_refused (s : State) {off size : Nat} (v : Nat) (h : sizeIn (2 ^ 26) off size = false) :
    writeReg s off size v = s := by
  simp only [writeReg, writeIn, h, Bool.not_false, true_or, if_true]

theorem writeReg_short (s : State) {off size : Nat} (v : Nat) (h : size < 4) : writeReg s off size v = s := by
  simp only [writeReg, writeIn, h, or_true, if_true]

theorem writeReg_word (s : State) {off : Nat} (v : Nat) (hal : off % 4 = 0) (hin : off + 4 ≤ 2 ^ 26) :
    writeReg s off 4 v = writeWord s off v := by
  simp only [writeReg, writeIn, sizeIn_word hal hin, Bool.not_true, Bool.false_eq_true, Nat.lt_irrefl, or_self,
    if_false, Nat.reduceEqDiff]

theorem writeReg_double (s : State) {off : Nat} (v : Nat) (hal : off % 8 = 0) (hin : off < 2 ^ 26) :
    writeReg s off 8 v = writeWord (writeWord s off v) (off + 4) (v / 2 ^ 32) := by
  simp only [writeReg, writeIn, sizeIn_double hal hin, Bool.not_true, Bool.false_eq_true, Nat.reduceLT, or_self,
    if_false, if_true]

theorem exec_registerWrite_word (s : State) {off n : Nat} (hal : off % 4 = 0) (hin : off + 4 ≤ 2 ^ 26)
    (hn : n < 2 ^ 64) : exec (.registerWrite ⟨0, off⟩ 4 (dw n)) s = .next (writeWord s off n) := by
  rw [exec_registerWrite_pf0, toNat_dw hn, writeReg_word s n hal hin]

/-- A register takes the low 32 bits of what is written to it. -/
theorem writeWord_mod (s : State) (off v : Nat) : writeWord s off (v % 2 ^ 32) = writeWord s off v := by
  simp only [writeWord, Nat.mod_mod]

/-! ### The obligations -/

/-- Settles O26: a short read lies within one register, so it has the 4-byte read's effect and its bytes; of the
8-byte reads only that of the GTC sees a word that it latches itself. -/
theorem registerAccessSizes : Obligations.RegisterAccessSizes := by
  intro s off size v
  refine ⟨fun hbad => ⟨?_, ?_⟩, fun hs => ?_, fun hs hal hin => ?_, fun hal hin hgtc => ?_, ?_, fun hal hin => ?_⟩
  · have hsize := sizeIn_of_refused (2 ^ 26) hbad
    rw [readReg_value_of_uncovered (covers_of_refused _ hsize), readValue_of_refused s hsize]
  · rw [exec_registerWrite_pf0, writeReg_of_refused s _ (sizeIn_of_refused _ hbad)]
  · rw [exec_registerWrite_pf0, writeReg_short s _ (by omega)]
  · rw [readReg_value, readReg_value, covers_short hs hal hin (by decide), readValue_short _ hs hal hin]
  · have hnone : ∀ {o n}, off ≤ o → o + n ≤ off + 8 → covers o n tckGtcLo = false := fun hlo hhi =>
      covers_eq_false_of_apart (by simp only [tckGtcLo]; omega)
    rw [readReg_value_of_uncovered (hnone (by omega) (by omega)),
      readReg_value_of_uncovered (hnone (by omega) (by omega)),
      readReg_value_of_uncovered (hnone (by omega) (by omega)), readValue_double s hal hin]
  · exact readValue_gtc_latched s
  · refine ⟨_, _, exec_registerWrite_word s (by omega) (by omega) (by omega),
      exec_registerWrite_word _ (by omega) (by omega) (by omega), ?_⟩
    rw [exec_registerWrite_pf0, writeReg_double s _ hal hin, writeWord_mod]

/-- Settles O27: `readReg` has two effects, each behind the test that the read covers its register; the latch comes
before the value is taken, the removal after it. -/
theorem readsThatChangeState : Obligations.ReadsThatChangeState := by
  intro s
  refine ⟨⟨_, exec_gtcLoRead_eq s (by omega), rfl, rfl, ?_⟩,
    fun size hs => ⟨_, exec_gtcLoRead_eq s (by omega), rfl, rfl, fun h8 => ?_⟩,
    fun off size hs hal hlo hhi => ?_, fun off size hpoison hgtc => ?_⟩
  · rw [readValue_gtcLo]
    exact toNat_dw (by simp only [latchGtcHi]; omega)
  · rw [h8, readValue_gtc_latched]
    exact toNat_dw (by omega)
  · have hgtc : covers off size tckGtcLo = false :=
      covers_eq_false_of_apart (.inl (by simp only [tckGtcLo]; omega))
    have hpoison : covers off size memPoisonHi = true := covers_eq_true hs hal (by omega) hlo hhi
    refine ⟨_, exec_poisonLogRead_of_covers hgtc hpoison, rfl, popPoison_eq s.memory, fun h8 => ?_⟩
    subst h8
    obtain rfl : off = 0x30040 := by omega
    exact readValue_poison_entry s
  · exact ⟨_, exec_poisonLogRead_of_uncovered (covers_eq_false_of_apart hgtc) (covers_eq_false_of_apart hpoison), rfl⟩

end Sys2Proof.Proofs.BarAccess
